-- ==== Sys2Proof/Word.lean ====
section
/-! DEFINITION. The word types of the block (spec/00_scope.md R9: unsigned integers of a stated width). -/

namespace Sys2Proof

/-- A byte of `HDR_OUT` or of the header buffer (R44, R61). -/
abbrev Byte := BitVec 8

/-- A 16-bit value: a command word, a 16-bit header field, an occupancy entry (R80, R62, R29). -/
abbrev Half := BitVec 16

/-- A 64-bit value: a data operand, a response's `RDATA`, the correlator register (R80, R83, R37). -/
abbrev Word := BitVec 64

end Sys2Proof
end

