-- ==== Sys2Proof/Config.lean ====
section
/-! DEFINITION. What the source fixes for every implementation (R7), what it leaves to the implementation
(R8), and the one free value of the spec (R55). -/

namespace Sys2Proof

/-- The named parameters of R8 whose range has more than one value. They are plain data that State carries
and no step changes, so that a statement about every state is a statement about every implementation
(R8: "Each is a named parameter the model takes as an argument"; log entry 1). -/
structure Params where
  /-- `HDR_MAX_UNITS`, the largest VariableBits/OFDM header in units (D4). -/
  hdrMaxUnits : Nat
  /-- `OCC_MAX`, the entries of the carrier-occupancy table (D5). -/
  occMax : Nat
  /-- `SCRAMBLE_SEQ`, element `j` the bit `SEQ[j]` (D6). -/
  scrambleSeq : List Bool
deriving DecidableEq, Repr

namespace Config

/-- `AC_MAX` (R7). -/
abbrev acMax : Nat := 64
/-- `BPS_MIN` (R7). -/
abbrev bpsMin : Nat := 1
/-- `BPS_MAX` (R7). -/
abbrev bpsMax : Nat := 8

/-- The free value of a header-register cell at or above `HR.len` (R55: "A model must treat such a bit as a
free draw, not as 0"). It has no body: nothing can be proved of it. Its arguments are the number of the draw
(`State.draws`) and the index of the cell (log entry 3). -/
opaque freeCell (draw cell : Nat) : Bool

end Config

end Sys2Proof
end

