-- ==== Sys2Proof/Syntax.lean ====
section
/-! DEFINITION. The command of R80, the closed sets of names its operands use, and `Instr`: one constructor for
every row of spec/opcode_table.json, the 15 commands of R85 and the 32 internal primitives of R91. -/

namespace Sys2Proof

/-- One transaction on the command port: the command word `CW` and the data word `DATA` (R80). -/
structure Command where
  cw : Half
  data : Word
deriving DecidableEq, Repr

/-- The five header layouts (R21; R16: "a closed tagged variant"). -/
inductive Variant where
  | default
  | counter
  | crc
  | variableBits
  | ofdm
deriving DecidableEq, Repr

/-- The status codes of a response (R84). -/
inductive Status where
  | ok
  | illegal
  | cfgErr
  | blocked
  | fmtLen
  | fmtUnsup
deriving DecidableEq, Repr

/-- The overload widths of `HBAddField` (R101: `N` in {8, 16, 32, 64}). -/
inductive Overload where
  | bits8
  | bits16
  | bits32
  | bits64
deriving DecidableEq, Repr

/-- The instructions: one constructor per row of spec/opcode_table.json, in the table's order. -/
inductive Instr where
  /-- `NOP` (R206). -/
  | nop
  /-- `RESET` (R203). -/
  | reset
  /-- `SYNC_RESET` (R204). -/
  | syncReset
  /-- `CFG_VARIANT v` (R191). -/
  | cfgVariant (v : Byte)
  /-- `CFG_ACCESS_CODE n, p` (R192). -/
  | cfgAccessCode (n : Byte) (p : Word)
  /-- `CFG_THRESHOLD t` (R193). -/
  | cfgThreshold (t : Byte)
  /-- `CFG_BPS b` (R194). -/
  | cfgBps (b : Byte)
  /-- `CFG_HDR_UNITS u` (R195). -/
  | cfgHdrUnits (u : Word)
  /-- `CFG_PAYLOAD_BPS p` (R196). -/
  | cfgPayloadBps (p : Byte)
  /-- `CFG_OCC_LEN n` (R197). -/
  | cfgOccLen (n : Byte)
  /-- `CFG_OCC_ENTRY i, c` (R198). -/
  | cfgOccEntry (i : Byte) (c : Word)
  /-- `PUSH_BIT b` (R176). -/
  | pushBit (b : Bool)
  /-- `PUSH_SOFT x`, `x` the binary32 pattern of `DATA[31:0]` (R178, R82). -/
  | pushSoft (x : BitVec 32)
  /-- `FORMAT L` (R160). -/
  | format (len : Word)
  /-- `READ_REG r` (R205). -/
  | readReg (r : Byte)
  /-- `HBAddField(N, w, v, bs)` (R101). -/
  | hbAddField (n : Overload) (w : Nat) (v : Word) (bs : Bool)
  /-- `HBAddField` with `bs = 1` (R102). -/
  | hbAddFieldBigEndian (n : Overload) (w : Nat) (v : Word)
  /-- `HBLength()` (R104). -/
  | hbLength
  /-- `HR.insert(b)` (R110). -/
  | hrInsert (b : Bool)
  /-- `HR.extract(off, w)` (R111). -/
  | hrExtract (off w : Nat)
  /-- `HR.extract_lsb(off, w)` (R113). -/
  | hrExtractLsb (off w : Nat)
  /-- `HR.clear()` (R114). -/
  | hrClear
  /-- `CorrStep(b)` (R120). -/
  | corrStep (b : Bool)
  /-- `Slice(x)` (R122). -/
  | slice (x : BitVec 32)
  /-- `crc8(bytes)` (R131). -/
  | crc8 (bytes : List Byte)
  /-- `crc_of(l, c)`, of two 12-bit field values (R132). -/
  | crcOf (l c : BitVec 12)
  /-- `Default.format_bytes(L)` (R140). -/
  | defaultFormatBytes (len : Word)
  /-- `Default.hdr_ok()` (R141). -/
  | defaultHdrOk
  /-- `Default.hdr_payload()` (R142). -/
  | defaultHdrPayload
  /-- `Counter.format_bytes(L)` (R143). -/
  | counterFormatBytes (len : Word)
  /-- `Counter.hdr_ok()` (R144). -/
  | counterHdrOk
  /-- `Counter.hdr_payload()` (R145). -/
  | counterHdrPayload
  /-- `CRC.format_bytes(L)` (R146). -/
  | crcFormatBytes (len : Word)
  /-- `CRC.hdr_ok()` (R147). -/
  | crcHdrOk
  /-- `CRC.hdr_payload()` (R148). -/
  | crcHdrPayload
  /-- `VariableBits.format_bytes(L)` (R150). -/
  | variableBitsFormatBytes (len : Word)
  /-- `VariableBits.hdr_ok()` (R152). -/
  | variableBitsHdrOk
  /-- `VariableBits.hdr_payload()` (R153). -/
  | variableBitsHdrPayload
  /-- `SEQ` (R151). -/
  | seq
  /-- `OFDM.format_bytes(L)` (R154). -/
  | ofdmFormatBytes (len : Word)
  /-- `ofdm_symbols(P)` (R155). -/
  | ofdmSymbols (p : BitVec 32)
  /-- `OFDM.hdr_ok()` (R156). -/
  | ofdmHdrOk
  /-- `OFDM.hdr_payload()` (R157). -/
  | ofdmHdrPayload
  /-- `ConsumeBit(b)` (R170). -/
  | consumeBit (b : Bool)
  /-- `JudgeHeader()` (R172). -/
  | judgeHeader
  /-- `FramingReset()` (R241). -/
  | framingReset
  /-- `fail s` (R222). -/
  | fail (st : Status)
deriving DecidableEq, Repr

end Sys2Proof
end

