-- ==== Sys2Proof/WellFormed.lean ====
section
/-! DEFINITION. Which terms of `Instr` the spec defines: the operand ranges of R101, R111, R113 and R222, which the
operand types alone do not carry. Every command term is well-formed, since R82 gives `ARG` and `DATA` no range. -/

namespace Sys2Proof

/-- The bytes an overload holds, `N/8` (R101). -/
def Overload.bytes : Overload → Nat
  | .bits8 => 1
  | .bits16 => 2
  | .bits32 => 4
  | .bits64 => 8

/-- Whether an instruction is one of the 15 commands of R85, rather than an internal primitive of R91. -/
def Instr.isCommand : Instr → Bool
  | .nop | .reset | .syncReset | .cfgVariant _ | .cfgAccessCode _ _ | .cfgThreshold _ | .cfgBps _
  | .cfgHdrUnits _ | .cfgPayloadBps _ | .cfgOccLen _ | .cfgOccEntry _ _ | .pushBit _ | .pushSoft _
  | .format _ | .readReg _ => true
  | .hbAddField _ _ _ _ | .hbAddFieldBigEndian _ _ _ | .hbLength | .hrInsert _ | .hrExtract _ _
  | .hrExtractLsb _ _ | .hrClear | .corrStep _ | .slice _ | .crc8 _ | .crcOf _ _ | .defaultFormatBytes _
  | .defaultHdrOk | .defaultHdrPayload | .counterFormatBytes _ | .counterHdrOk | .counterHdrPayload
  | .crcFormatBytes _ | .crcHdrOk | .crcHdrPayload | .variableBitsFormatBytes _ | .variableBitsHdrOk
  | .variableBitsHdrPayload | .seq | .ofdmFormatBytes _ | .ofdmSymbols _ | .ofdmHdrOk | .ofdmHdrPayload
  | .consumeBit _ | .judgeHeader | .framingReset | .fail _ => false

/-- R101: `0 <= w <= N/8`. -/
def fieldWidthOk (n : Overload) (w : Nat) : Bool := w ≤ n.bytes

/-- R111, R113: `1 <= w <= 64`. -/
def extractWidthOk (w : Nat) : Bool := 1 ≤ w && w ≤ 64

/-- R11: `fail` ends the command "with a non-OK status". -/
def failStatusOk (st : Status) : Bool := st != .ok

/-- The operands are in the ranges the spec states for the row. -/
def Instr.wellFormed : Instr → Bool
  | .hbAddField n w _ _ => fieldWidthOk n w
  | .hbAddFieldBigEndian n w _ => fieldWidthOk n w
  | .hrExtract _ w => extractWidthOk w
  | .hrExtractLsb _ w => extractWidthOk w
  | .fail st => failStatusOk st
  | .nop | .reset | .syncReset | .cfgVariant _ | .cfgAccessCode _ _ | .cfgThreshold _ | .cfgBps _
  | .cfgHdrUnits _ | .cfgPayloadBps _ | .cfgOccLen _ | .cfgOccEntry _ _ | .pushBit _ | .pushSoft _
  | .format _ | .readReg _ | .hbLength | .hrInsert _ | .hrClear | .corrStep _ | .slice _ | .crc8 _
  | .crcOf _ _ | .defaultFormatBytes _ | .defaultHdrOk | .defaultHdrPayload | .counterFormatBytes _
  | .counterHdrOk | .counterHdrPayload | .crcFormatBytes _ | .crcHdrOk | .crcHdrPayload
  | .variableBitsFormatBytes _ | .variableBitsHdrOk | .variableBitsHdrPayload | .seq | .ofdmFormatBytes _
  | .ofdmSymbols _ | .ofdmHdrOk | .ofdmHdrPayload | .consumeBit _ | .judgeHeader | .framingReset => true

end Sys2Proof
end

