-- ==== Sys2Proof/Machine/Bits.lean ====
section
/-! DEFINITION. The arithmetic notation of R10, the byte and bit orders of R62 to R66, and the two readings of a
run of bits as a number (R111, R113). -/

namespace Sys2Proof

/-- `ceil(a/b)` (R10). -/
def ceilDiv (a b : Nat) : Nat := (a + b - 1) / b

/-- `mask(n)`, the value with the `n` low bits set, as a 64-bit value (R10, R31). -/
def mask (n : Nat) : Word := BitVec.ofNat 64 (2 ^ n - 1)

/-- `popcount(v)` (R10). -/
def popcount {w : Nat} (v : BitVec w) : Nat := (List.range w).countP fun i => v.getLsbD i

/-- `LE_w(v)`, least significant byte first (R10). -/
def bytesLe : Nat → Nat → List Byte
  | 0, _ => []
  | w + 1, v => BitVec.ofNat 8 v :: bytesLe w (v / 256)

/-- `BE_w(v)`, most significant byte first (R10, R62). -/
def bytesBe (w v : Nat) : List Byte := (bytesLe w v).reverse

/-- A byte as stream bits, most significant first (R63). -/
def msbFirst (x : Byte) : List Bool := (List.range 8).map fun i => x.getLsbD (7 - i)

/-- The `b` low bits of a unit as stream bits, bit 0 first (R64). -/
def unitBits (b : Nat) (u : Byte) : List Bool := (List.range b).map fun q => u.getLsbD q

/-- `w` bits of a bit sequence from `off` on as a number, first bit the most significant: the loop of R111. -/
def fieldMsb (bits : Nat → Bool) (off : Nat) : Nat → Nat
  | 0 => 0
  | w + 1 => 2 * fieldMsb bits off w + (bits (off + w)).toNat

/-- `w` bits of a bit sequence from `off` on as a number, first bit the least significant: the sum of R113. -/
def fieldLsb (bits : Nat → Bool) (off : Nat) : Nat → Nat
  | 0 => 0
  | w + 1 => fieldLsb bits off w + 2 ^ w * (bits (off + w)).toNat

end Sys2Proof
end

