-- ==== Sys2Proof/Machine/Operands.lean ====
section
/-! DEFINITION. The operand forms: the fields of the command word and the data word (R81, R82), and the widths in
which the commands use them. -/

namespace Sys2Proof

/-- `OP = CW[15:8]` (R81). -/
def Command.op (c : Command) : Byte := c.cw.extractLsb' 8 8

/-- `ARG = CW[7:0]` (R81). -/
def Command.arg (c : Command) : Byte := c.cw.extractLsb' 0 8

/-- `DATA[31:0]`, the binary32 operand of `PUSH_SOFT`; `DATA[63:32]` is ignored (R82). -/
def Command.soft (c : Command) : BitVec 32 := c.data.extractLsb' 0 32

/-- A command from its fields (R81). -/
def Command.ofFields (op arg : Byte) (data : Word) : Command := ⟨op ++ arg, data⟩

/-- `mod 2^12` of a payload length or of the packet counter, the 12-bit field value (R133, R146). -/
def field12 {w : Nat} (v : BitVec w) : BitVec 12 := v.setWidth 12

/-- A 12-bit field value zero-extended to 16 bits (R65, R132). -/
def zext16 (v : BitVec 12) : Half := v.setWidth 16

end Sys2Proof
end

