-- ==== Sys2Proof/Decode.lean ====
section
/-! DEFINITION. Decoding of a command (R85 to R87), total and rejecting by name, and the encoder of the 15 commands.
The internal primitives have no encoding (R91). -/

namespace Sys2Proof

/-- Why a command word has no instruction: checks 1 and 2 of R86. -/
inductive DecodeError where
  /-- Check 1: `OP` is not assigned in R85. -/
  | unassignedOpcode (op : Byte)
  /-- Check 2: non-zero reserved `ARG` bits. -/
  | reservedArg (op arg : Byte)
deriving DecidableEq, Repr

/-- A command whose `ARG` must be 0x00 (R85, check 2 of R86). -/
def decodeZeroArg (c : Command) (i : Instr) : Except DecodeError Instr :=
  if c.arg = 0x00#8 then .ok i else .error (.reservedArg c.op c.arg)

/-- `PUSH_BIT`: the bit in `ARG[0]`, and `ARG[7:1]` must be 0 (R85, R176). -/
def decodePushBit (c : Command) : Except DecodeError Instr :=
  if c.arg.extractLsb' 1 7 = 0x00#7 then .ok (.pushBit (c.arg.getLsbD 0))
  else .error (.reservedArg c.op c.arg)

/-- The opcode map of R85, with checks 1 and 2 of R86. Check 3 (the register number) needs the parameters of R8 and
is made by `READ_REG` itself. -/
def decode (c : Command) : Except DecodeError Instr :=
  if c.op = 0x00#8 then decodeZeroArg c .nop
  else if c.op = 0x01#8 then decodeZeroArg c .reset
  else if c.op = 0x02#8 then decodeZeroArg c .syncReset
  else if c.op = 0x10#8 then .ok (.cfgVariant c.arg)
  else if c.op = 0x11#8 then .ok (.cfgAccessCode c.arg c.data)
  else if c.op = 0x12#8 then .ok (.cfgThreshold c.arg)
  else if c.op = 0x13#8 then .ok (.cfgBps c.arg)
  else if c.op = 0x14#8 then decodeZeroArg c (.cfgHdrUnits c.data)
  else if c.op = 0x15#8 then .ok (.cfgPayloadBps c.arg)
  else if c.op = 0x16#8 then .ok (.cfgOccLen c.arg)
  else if c.op = 0x17#8 then .ok (.cfgOccEntry c.arg c.data)
  else if c.op = 0x20#8 then decodePushBit c
  else if c.op = 0x21#8 then decodeZeroArg c (.pushSoft c.soft)
  else if c.op = 0x30#8 then decodeZeroArg c (.format c.data)
  else if c.op = 0x40#8 then .ok (.readReg c.arg)
  else .error (.unassignedOpcode c.op)

/-- The command that carries an instruction (R85, R88); `none` for an internal primitive (R91). Ignored `DATA` and
ignored `DATA` bits are sent as 0. -/
def encode : Instr → Option Command
  | .nop => some (.ofFields 0x00 0 0)
  | .reset => some (.ofFields 0x01 0 0)
  | .syncReset => some (.ofFields 0x02 0 0)
  | .cfgVariant v => some (.ofFields 0x10 v 0)
  | .cfgAccessCode n p => some (.ofFields 0x11 n p)
  | .cfgThreshold t => some (.ofFields 0x12 t 0)
  | .cfgBps b => some (.ofFields 0x13 b 0)
  | .cfgHdrUnits u => some (.ofFields 0x14 0 u)
  | .cfgPayloadBps p => some (.ofFields 0x15 p 0)
  | .cfgOccLen n => some (.ofFields 0x16 n 0)
  | .cfgOccEntry i c => some (.ofFields 0x17 i c)
  | .pushBit b => some (.ofFields 0x20 (0x00#7 ++ BitVec.ofBool b) 0)
  | .pushSoft x => some (.ofFields 0x21 0 (x.setWidth 64))
  | .format len => some (.ofFields 0x30 0 len)
  | .readReg r => some (.ofFields 0x40 r 0)
  | .hbAddField _ _ _ _ | .hbAddFieldBigEndian _ _ _ | .hbLength | .hrInsert _ | .hrExtract _ _
  | .hrExtractLsb _ _ | .hrClear | .corrStep _ | .slice _ | .crc8 _ | .crcOf _ _ | .defaultFormatBytes _
  | .defaultHdrOk | .defaultHdrPayload | .counterFormatBytes _ | .counterHdrOk | .counterHdrPayload
  | .crcFormatBytes _ | .crcHdrOk | .crcHdrPayload | .variableBitsFormatBytes _ | .variableBitsHdrOk
  | .variableBitsHdrPayload | .seq | .ofdmFormatBytes _ | .ofdmSymbols _ | .ofdmHdrOk | .ofdmHdrPayload
  | .consumeBit _ | .judgeHeader | .framingReset | .fail _ => none

/-- The 80-bit transaction whose low `nbits` bits are `w` and whose other bits are 0. R80 makes the transaction of `CW` and
`DATA` but does not say how they lie in it: that `CW` is bits 15 to 0 and `DATA` bits 79 to 16, so that `DATA` is 0 where
only the 16 bits of `CW` are given, is the model's choice (DESIGN CHOICE, log entry 19). -/
def commandOfTableWord (nbits w : Nat) : Command :=
  let t := w % 2 ^ nbits
  ⟨BitVec.ofNat 16 t, BitVec.ofNat 64 (t / 2 ^ 16)⟩

/-- What the decoder reads from a row's bits, laid out as log entry 19 says; `none` where it refuses, and where the table gives the row no bits
(R91: an internal primitive has no encoding). -/
def decodeTableWord (nbits w : Nat) : Option Instr :=
  if nbits = 0 then none
  else
    match decode (commandOfTableWord nbits w) with
    | .ok i => some i
    | .error _ => none

end Sys2Proof
end

