-- ==== Sys2Proof/Machine/Scrambler.lean ====
section
/-! DEFINITION. The default scramble sequence of R151 and the default parameters of R8. The sequence is general
knowledge in the spec too ("[from general knowledge, not in source]"); every statement of the model holds for any
sequence (log entries 1 and 2). -/

namespace Sys2Proof

/-- The feedback of the 8-bit Fibonacci LFSR: the parity of `r AND 0x8A` (R151). -/
def lfsrFeedback (r : Byte) : Bool := popcount (r &&& 0x8A#8) % 2 = 1

/-- `r <- (r >> 1) OR (f << 7)` (R151). -/
def lfsrNext (r : Byte) : Byte := (r >>> 1) ||| if lfsrFeedback r then 0x80#8 else 0x00#8

/-- The first `n` output bits of the LFSR from register value `r` (R151: `SEQ[n] <- r[0]`). -/
def lfsrBits : Nat → Byte → List Bool
  | 0, _ => []
  | n + 1, r => r.getLsbD 0 :: lfsrBits n (lfsrNext r)

/-- The default parameters of R8: `HDR_MAX_UNITS` = 64, `OCC_MAX` = 64, `SCRAMBLE_SEQ` the sequence of R151, seed 0x6F,
of length `8*HDR_MAX_UNITS`. -/
def defaultParams : Params := ⟨64, 64, lfsrBits (8 * 64) 0x6F#8⟩

end Sys2Proof
end

