-- ==== Sys2Proof/Machine/State.lean ====
section
/-! DEFINITION. The state of one TGR-FSYNC instance (spec/10_state.md), the reasons a step can stop, and the state
at power-on (R56, R240). -/

namespace Sys2Proof.Machine

/-- `STATE`, the FramingState (R36). -/
inductive FramingState where
  | syncSearch
  | haveSync
  | haveHeader
deriving DecidableEq, Repr

/-- The configuration registers of R21 to R29, the record that R190 copies. -/
structure CfgRegs where
  /-- `VARIANT` (R21). -/
  variant : Variant
  /-- `AC_LEN` (R22). -/
  acLen : BitVec 7
  /-- `AC_PATTERN` (R23). -/
  acPattern : Word
  /-- `THRESHOLD` (R24). -/
  threshold : BitVec 7
  /-- `BPS` (R25). -/
  bps : BitVec 4
  /-- `HDR_UNITS` (R26). -/
  hdrUnits : Half
  /-- `PAYLOAD_BPS` (R27). -/
  payloadBps : BitVec 4
  /-- `OCC_LEN` (R28). -/
  occLen : BitVec 7
  /-- `OCC[0]` to `OCC[OCC_MAX-1]` (R29). -/
  occ : List Half
deriving DecidableEq, Repr

/-- The hardware form of one metadata dictionary (R45). -/
structure Record where
  variant : Variant
  payloadBits : BitVec 32
  skip : Word
  len : Half
  bps : Half
  counter : Half
  ofdmSymbols : BitVec 32
deriving DecidableEq, Repr

/-- The response to a command (R83). -/
structure Response where
  status : Status
  rdata : Word
deriving DecidableEq, Repr

/-- What an internal primitive hands to the rule that calls it, when it is run as an instruction of its own (the
model's own type, log entry 7). -/
inductive Ret where
  /-- No primitive that returns a value has run. -/
  | none
  /-- A match signal, a sliced bit, a validity or an `emitted` flag. -/
  | bit (b : Bool)
  /-- An extracted field, a CRC, a length or a count, zero-extended. -/
  | word (v : Word)
  /-- A bit sequence. -/
  | bits (l : List Bool)
  /-- `(len, rec)` of a `hdr_payload` (R172). -/
  | payload (len : Half) (record : Record)
deriving DecidableEq, Repr

/-- Why the machine stops. The block itself has no traps (R225): each of these stands at a point that the spec
derives to be unreachable, and no state within the invariant of Safety.lean raises one by a command (log entries
10 and 11). All are safe: they stop where the spec gives no effect. -/
inductive Fault where
  /-- `HR.insert` with every header-register cell written. Raised by `hrInsert`. R110: "insert is never called with
  HR.len = HR_CAP". Safe. -/
  | headerRegisterFull
  /-- A bit consumed in `HaveHeader` with `PAYLOAD_REMAIN = 0`. Raised by `consumeBit`. R174: "the decrement never
  wraps". Safe. -/
  | payloadUnderflow
  /-- `BPS = 0` as a unit width or as the divisor of the payload count. Raised by the VariableBits and OFDM layouts
  and by `judgeHeader`. R25: `BPS` is 1 to 8. Safe. -/
  | zeroBitsPerSymbol
  /-- An occupancy walk that never reaches its goal, or a table entry that does not exist. Raised by `ofdm_symbols`
  and by `READ_REG` of a missing entry. R155: "The loop ends because some OCC[i] > 0". Safe. -/
  | occupancyWalk
  /-- An OFDM header longer than `SCRAMBLE_SEQ`. Raised by the OFDM layout. R151 gives the sequence the length of the
  longest header. Safe. -/
  | scrambleExhausted
  /-- A layout wrote fewer than `header_nbytes` bytes. Raised by `FORMAT`. R105: "each layout of rule R103 writes
  exactly header_nbytes bytes". Safe. -/
  | headerBufferShort
  /-- `Default.format_bytes` or `Counter.format_bytes` called without its stated precondition `effL mod 8 = 0`
  (R140, R143), where `effL/8` is no number of bytes. Raised by those two primitives; `FORMAT` checks it first. Safe. -/
  | formatPrecondition
deriving DecidableEq, Repr

/-- Why an instruction gets no meaning. -/
inductive Refusal where
  /-- Raised by `exec` for an instruction that has no meaning yet. Safe. -/
  | notModelled (mnemonic : String)
  /-- Raised by a primitive whose operand is outside the range its rule states (R101, R111, R113, R11), which is
  `Instr.wellFormed` being false. No command word decodes to such a term. Safe (log entry 12). -/
  | illFormed
deriving DecidableEq, Repr

/-- The state of one instance (R20). -/
structure State where
  /-- The implementation parameters of R8, which no step changes (log entry 1). -/
  params : Params
  /-- The configuration registers (R21 to R29). -/
  cfg : CfgRegs
  /-- `STATE` (R36). -/
  fsm : FramingState
  /-- `DATA_REG` (R37). -/
  dataReg : Word
  /-- `HR.bits`, the `HR_CAP` cells of the header register (R38). -/
  hrBits : List Bool
  /-- `HR.len` (R38). -/
  hrLen : BitVec 14
  /-- `NSKIP` (R39). -/
  nskip : Word
  /-- `PAYLOAD_REMAIN` (R40). -/
  payloadRemain : BitVec 32
  /-- `TX_COUNTER` (R41). -/
  txCounter : Half
  /-- `FAULT` (R42). -/
  fault : Bool
  /-- `LAST_ERR` (R43). -/
  lastErr : Byte
  /-- `HDR_OUT`, first byte emitted first (R44). -/
  hdrOut : List Byte
  /-- `REC_OUT`, first record emitted first (R46). -/
  recOut : List Record
  /-- The response port, first response first (R80, R83; log entry 6). -/
  respOut : List Response
  /-- The command port: commands presented and not yet taken, in arrival order (R50, R80; log entry 5). -/
  cmdIn : List Command
  /-- `HB[0]` to `HB[HB.cur-1]`, the bytes written to the header buffer (R61, R100; log entry 8). -/
  hb : List Byte
  /-- The model's own: the number of free draws made (R55; log entry 3). -/
  draws : Nat
  /-- The model's own: the value the last primitive returned (log entry 7). -/
  ret : Ret
deriving DecidableEq, Repr

/-- What one instruction can do. -/
abbrev Out := Host.Outcome State Fault Refusal

/-- The configuration registers after reset (R56), for a table of `OCC_MAX` entries. -/
def CfgRegs.reset (p : Params) : CfgRegs where
  variant := .default
  acLen := 0
  acPattern := 0
  threshold := 0
  bps := 1
  hdrUnits := 32
  payloadBps := 1
  occLen := 1
  occ := 1 :: List.replicate (p.occMax - 1) 0

/-- The state at power-on of an implementation with parameters `p` (R56, R240). -/
def State.powerOn (p : Params) : State where
  params := p
  cfg := .reset p
  fsm := .syncSearch
  dataReg := 0
  hrBits := List.replicate (max 64 (8 * p.hdrMaxUnits)) false
  hrLen := 0
  nskip := 0
  payloadRemain := 0
  txCounter := 0
  fault := false
  lastErr := 0
  hdrOut := []
  recOut := []
  respOut := []
  cmdIn := []
  hb := []
  draws := 0
  ret := .none

/-- The machine right after reset, with the parameters R8 assumes by default. -/
def State.reset : State := .powerOn defaultParams

end Sys2Proof.Machine
end

