-- ==== Sys2Proof/Machine/Derived.lean ====
section
/-! DEFINITION. Values computed from the configuration (R30 to R35), the capacity of the header register (R38) and
the numeric codes of the closed types (R21, R36, R84). -/

namespace Sys2Proof

/-- `HR_CAP` (R38). -/
def Params.hrCap (p : Params) : Nat := max 64 (8 * p.hdrMaxUnits)

/-- The numbers of R21. -/
def Variant.code : Variant → BitVec 3
  | .default => 0
  | .counter => 1
  | .crc => 2
  | .variableBits => 3
  | .ofdm => 4

/-- The layout with a number (R21); values above 4 name none. -/
def Variant.ofNumber (v : Byte) : Option Variant :=
  if v = 0#8 then some .default
  else if v = 1#8 then some .counter
  else if v = 2#8 then some .crc
  else if v = 3#8 then some .variableBits
  else if v = 4#8 then some .ofdm
  else none

/-- The layouts whose header is counted in units: `VARIANT` 3 and 4. -/
def Variant.usesUnits : Variant → Bool
  | .default | .counter | .crc => false
  | .variableBits | .ofdm => true

/-- The layouts that carry an access code: `VARIANT` 0 and 1 (R31). -/
def Variant.hasCode : Variant → Bool
  | .default | .counter => true
  | .crc | .variableBits | .ofdm => false

/-- The status codes of R84. -/
def Status.code : Status → Byte
  | .ok => 0x00
  | .illegal => 0x01
  | .cfgErr => 0x02
  | .blocked => 0x03
  | .fmtLen => 0x04
  | .fmtUnsup => 0x05

end Sys2Proof

namespace Sys2Proof.Machine

/-- The numbers of R36. -/
def FramingState.code : FramingState → BitVec 2
  | .syncSearch => 0
  | .haveSync => 1
  | .haveHeader => 2

/-- `min_units(b)` (R35). -/
def minUnits (b : Nat) : Nat := 2 * ceilDiv 12 b + ceilDiv 8 b

/-- `effL` (R31). -/
def CfgRegs.effL (c : CfgRegs) : Nat := if c.variant.hasCode then c.acLen.toNat else 0

/-- The effective pattern (R31). -/
def CfgRegs.effPattern (c : CfgRegs) : Word := if c.effL = c.acLen.toNat then c.acPattern else 0

/-- The sync target `Htgt = header_nbits - effL` (R34). -/
def CfgRegs.htgt (c : CfgRegs) : Nat :=
  match c.variant with
  | .default => 32
  | .counter => 64
  | .crc => 32
  | .variableBits => c.hdrUnits.toNat * c.bps.toNat
  | .ofdm => c.hdrUnits.toNat * c.bps.toNat

/-- `header_nbits` (R32, R34). -/
def CfgRegs.headerNbits (c : CfgRegs) : Nat := c.effL + c.htgt

/-- `header_nbytes` (R33). -/
def CfgRegs.headerNbytes (c : CfgRegs) : Nat :=
  if c.variant.usesUnits then c.hdrUnits.toNat else c.headerNbits / 8

/-- The access code lies within its length: `AC_LEN <= 64` and the bits of `AC_PATTERN` at `AC_LEN` and above are 0
(R22, R23). -/
def CfgRegs.codeFits (c : CfgRegs) : Bool :=
  c.acLen.toNat ≤ Config.acMax && c.acPattern &&& ~~~(mask c.acLen.toNat) == 0

/-- `HDR_UNITS >= min_units(BPS)` while `VARIANT` is 3 or 4 (R26, R30). -/
def CfgRegs.unitsFit (c : CfgRegs) : Bool :=
  !c.variant.usesUnits || minUnits c.bps.toNat ≤ c.hdrUnits.toNat

/-- A non-zero in-use occupancy entry while `VARIANT = 4` (R29, R30). -/
def CfgRegs.occupied (c : CfgRegs) : Bool :=
  c.variant != .ofdm || (c.occ.take c.occLen.toNat).any fun n => n != 0

/-- A valid configuration (R30). -/
def CfgRegs.valid (p : Params) (c : CfgRegs) : Bool :=
  c.codeFits
    && c.threshold.toNat ≤ c.acLen.toNat
    && (Config.bpsMin ≤ c.bps.toNat && c.bps.toNat ≤ Config.bpsMax)
    && (1 ≤ c.hdrUnits.toNat && c.hdrUnits.toNat ≤ p.hdrMaxUnits)
    && (1 ≤ c.payloadBps.toNat && c.payloadBps.toNat ≤ 8)
    && (1 ≤ c.occLen.toNat && c.occLen.toNat ≤ p.occMax)
    && c.occ.length == p.occMax
    && c.unitsFit
    && c.occupied

end Sys2Proof.Machine
end

