-- ==== Sys2Proof/Machine/Flags.lean ====
section
/-! DEFINITION. The flags of the block (R51): the match signal, the `ERR` word of `FAULT` and `LAST_ERR`, and the
`RDATA` flag of the push commands. The block has no condition codes. -/

namespace Sys2Proof.Machine

/-- A flag as a 64-bit response value, `zext_64(e)` (R176, R177). -/
def flagWord (e : Bool) : Word := if e then 1 else 0

/-- The match signal of R120 and R121, combinational: the bits in which the `effL` low bits of the correlator
register differ from the access code are at most `THRESHOLD`. -/
def matchSignal (c : CfgRegs) (data : Word) : Bool :=
  popcount ((data ^^^ c.acPattern) &&& mask c.effL) ≤ c.threshold.toNat

/-- The register `ERR`: `FAULT` in bit 0, `LAST_ERR` in bits 15:8, the other bits 0 (R47). -/
def errWord (fault : Bool) (lastErr : Byte) : Word :=
  ((lastErr ++ (0x00#7 ++ BitVec.ofBool fault) : BitVec 16)).setWidth 64

/-- `FAULT` after a command that ended with a status: `CFG_ERR` sets it and nothing but `RESET` clears it (R42, R222). -/
def faultAfter (fault : Bool) (st : Status) : Bool := fault || st == .cfgErr

end Sys2Proof.Machine
end

