-- ==== Sys2Proof/Machine/Ops.lean ====
section
/-! DEFINITION. The shared operations over the state: responding and failing (the block's whole error mechanism,
R220 to R227), the framing reset, the header register, the header buffer, the output ports and the command port. -/

namespace Sys2Proof.Machine

/-! ## Responses and errors -/

/-- `respond(status, rdata)`: one response on the response port (R83). -/
def State.respond (st : Status) (rdata : Word) (s : State) : State :=
  { s with respOut := s.respOut ++ [⟨st, rdata⟩] }

/-- `fail s` (R222): the one place where an error is taken. `LAST_ERR` takes the code, `CFG_ERR` sets `FAULT`, the
response is `(s, 0)`, and nothing else changes (R225: no trap entry, no vector, no saved state). -/
def State.fail (st : Status) (s : State) : State :=
  State.respond st 0 { s with lastErr := st.code, fault := faultAfter s.fault st }

/-- Check 4 of R86: a command other than `NOP`, `RESET` and `READ_REG` answers `BLOCKED` while `FAULT = 1` (R221). -/
def gate (run : State → Out) (s : State) : Out :=
  if s.fault then .next (s.fail .blocked) else run s

/-- The value a primitive hands to its caller (the model's own field, log entry 7). -/
def State.returns (r : Ret) (s : State) : State := { s with ret := r }

/-- The outcome of an operation that may meet one of the situations `Fault` names. -/
def outcome : Except Fault State → Out
  | .ok s => .next s
  | .error f => .fault f

/-! ## Framing reset and configuration -/

/-- `HR.clear()` (R114): the cells are not changed. -/
def State.hrClear (s : State) : State := { s with hrLen := 0 }

/-- `FramingReset()` (R241). -/
def State.framingReset (s : State) : State :=
  { s with fsm := .syncSearch, dataReg := 0, hrLen := 0, nskip := 0, payloadRemain := 0 }

/-- The common rule of the configuration commands (R190): `ok` says whether the command's own value checks hold and
`new` is the copy of the configuration registers with the command's registers changed. -/
def State.configure (ok : Bool) (new : CfgRegs) (s : State) : State :=
  if ok && new.valid s.params then
    State.respond .ok 0 (State.framingReset { s with cfg := new })
  else s.fail .cfgErr

/-! ## The header register -/

/-- The cells that hold a defined value: those below `HR.len` (R38, R55). -/
def State.hrDefined (s : State) : Nat := min s.hrLen.toNat s.hrBits.length

/-- A read of one cell: the stored bit below `HR.len`, a free draw elsewhere (R55). -/
def State.hrCell (s : State) (i : Nat) : Bool :=
  if i < s.hrDefined then s.hrBits[i]?.getD (Config.freeCell s.draws i) else Config.freeCell s.draws i

/-- The cells as `SEQ` descrambles them, `D[j] = HR.bits[j] XOR SEQ[j]` (R156). -/
def State.hrDescrambled (s : State) (j : Nat) : Bool :=
  s.hrCell j ^^ s.params.scrambleSeq[j]?.getD false

/-- Reading the cells below `hi`: if a cell had no defined value, one draw has been made, so that the next read draws
afresh (log entry 3). -/
def State.afterRead (hi : Nat) (s : State) : State :=
  if hi ≤ s.hrDefined then s else { s with draws := s.draws + 1 }

/-- `HR.insert(b)` (R110). -/
def hrInsert (b : Bool) (s : State) : Except Fault State :=
  if s.hrLen.toNat < s.hrBits.length then
    .ok { s with hrBits := s.hrBits.set s.hrLen.toNat b, hrLen := s.hrLen + 1 }
  else .error .headerRegisterFull

/-- `HR.extract(off, w)` (R111). -/
def State.hrExtract (off w : Nat) (s : State) : Word := BitVec.ofNat 64 (fieldMsb s.hrCell off w)

/-- `HR.extract_lsb(off, w)` (R113). -/
def State.hrExtractLsb (off w : Nat) (s : State) : Word := BitVec.ofNat 64 (fieldLsb s.hrCell off w)

/-! ## The header buffer and the output ports -/

/-- `HB.cur`, which is also `HBLength()`: the bytes written so far (R61, R104). -/
def State.hbCur (s : State) : Nat := s.hb.length

/-- The bytes a field of `HBAddField` puts on the wire (R101, R102). -/
def fieldBytes (n : Overload) (w : Nat) (v : Nat) (bs : Bool) : List Byte :=
  let t := v % 2 ^ (8 * n.bytes) % 2 ^ (8 * w)
  match n with
  | .bits8 => if w = 1 then [BitVec.ofNat 8 t] else []
  | .bits16 => if bs then bytesLe w t else bytesBe w t
  | .bits32 => if bs then bytesLe w t else bytesBe w t
  | .bits64 => if bs then bytesLe w t else bytesBe w t

/-- `HBAddField(N, w, v, bs)` (R101): the bytes are written at the cursor, which advances past them. No bounds check is
made (R105). -/
def State.addField (n : Overload) (w : Nat) (v : Nat) (bs : Bool) (s : State) : State :=
  { s with hb := s.hb ++ fieldBytes n w v bs }

/-- `EmitHdr(HB[i])` for `i` from 0 to `n-1` (R11, R61, R160). -/
def emitHeader (n : Nat) (s : State) : Except Fault State :=
  if n ≤ s.hb.length then .ok { s with hdrOut := s.hdrOut ++ s.hb.take n } else .error .headerBufferShort

/-- The header buffer created empty, and discarded, around a `FORMAT` (R61, R100). -/
def State.hbClear (s : State) : State := { s with hb := [] }

/-- `EmitRec(r)` (R11, R46). -/
def State.emitRec (r : Record) (s : State) : State := { s with recOut := s.recOut ++ [r] }

/-! ## The command port -/

/-- The next command in arrival order, and the state once it is taken (R50, R74). -/
def State.takeCommand (s : State) : Option (Command × State) :=
  match s.cmdIn with
  | [] => none
  | c :: rest => some (c, { s with cmdIn := rest })

/-- A command that checks 1 and 2 of R86 refuse: `ILLEGAL`, and no further effect apart from R222. -/
def State.rejectCommand (_ : DecodeError) (s : State) : State := s.fail .illegal

/-- The host presents a command that the very next step takes (R80; log entry 5). -/
def State.present (c : Command) (s : State) : State := { s with cmdIn := c :: s.cmdIn }

end Sys2Proof.Machine
end

