-- ==== Sys2Proof/Machine/Control.lean ====
section
/-! DEFINITION. The configuration, reset and register-access commands (spec/45_control.md), and the primitives
`FramingReset` and `fail`. -/

namespace Sys2Proof.Machine

/-! ## Configuration commands (R190 to R199) -/

/-- `CFG_VARIANT v`, checks 1 to 4 of R86 passed (R191). -/
def cfgVariantCommand (v : Byte) (s : State) : Out :=
  match Variant.ofNumber v with
  | some w => .next (s.configure true { s.cfg with variant := w })
  | none => .next (s.fail .cfgErr)

/-- `CFG_ACCESS_CODE n, p`, checks 1 to 4 of R86 passed (R192). -/
def cfgAccessCodeCommand (n : Byte) (p : Word) (s : State) : Out :=
  .next (s.configure
    (n.toNat ≤ Config.acMax && p &&& ~~~(mask n.toNat) == 0 && s.cfg.threshold.toNat ≤ n.toNat)
    { s.cfg with acLen := n.setWidth 7, acPattern := p })

/-- `CFG_THRESHOLD t`, checks 1 to 4 of R86 passed (R193). -/
def cfgThresholdCommand (t : Byte) (s : State) : Out :=
  .next (s.configure (t.toNat ≤ s.cfg.acLen.toNat) { s.cfg with threshold := t.setWidth 7 })

/-- `CFG_BPS b`, checks 1 to 4 of R86 passed (R194). -/
def cfgBpsCommand (b : Byte) (s : State) : Out :=
  .next (s.configure (Config.bpsMin ≤ b.toNat && b.toNat ≤ Config.bpsMax) { s.cfg with bps := b.setWidth 4 })

/-- `CFG_HDR_UNITS u`, `u` compared as a 64-bit value, checks 1 to 4 of R86 passed (R195). -/
def cfgHdrUnitsCommand (u : Word) (s : State) : Out :=
  .next (s.configure (1 ≤ u.toNat && u.toNat ≤ s.params.hdrMaxUnits) { s.cfg with hdrUnits := u.setWidth 16 })

/-- `CFG_PAYLOAD_BPS p`, checks 1 to 4 of R86 passed (R196). -/
def cfgPayloadBpsCommand (p : Byte) (s : State) : Out :=
  .next (s.configure (1 ≤ p.toNat && p.toNat ≤ 8) { s.cfg with payloadBps := p.setWidth 4 })

/-- `CFG_OCC_LEN n`, checks 1 to 4 of R86 passed (R197). -/
def cfgOccLenCommand (n : Byte) (s : State) : Out :=
  .next (s.configure (1 ≤ n.toNat && n.toNat ≤ s.params.occMax) { s.cfg with occLen := n.setWidth 7 })

/-- `CFG_OCC_ENTRY i, c`, checks 1 to 4 of R86 passed (R198). -/
def cfgOccEntryCommand (i : Byte) (c : Word) (s : State) : Out :=
  .next (s.configure (i.toNat < s.params.occMax && c.toNat ≤ 65535)
    { s.cfg with occ := s.cfg.occ.set i.toNat (c.setWidth 16) })

/-- `CFG_VARIANT` (R191). -/
def execCfgVariant (v : Byte) (s : State) : Out := gate (cfgVariantCommand v) s

/-- `CFG_ACCESS_CODE` (R192). -/
def execCfgAccessCode (n : Byte) (p : Word) (s : State) : Out := gate (cfgAccessCodeCommand n p) s

/-- `CFG_THRESHOLD` (R193). -/
def execCfgThreshold (t : Byte) (s : State) : Out := gate (cfgThresholdCommand t) s

/-- `CFG_BPS` (R194). -/
def execCfgBps (b : Byte) (s : State) : Out := gate (cfgBpsCommand b) s

/-- `CFG_HDR_UNITS` (R195). -/
def execCfgHdrUnits (u : Word) (s : State) : Out := gate (cfgHdrUnitsCommand u) s

/-- `CFG_PAYLOAD_BPS` (R196). -/
def execCfgPayloadBps (p : Byte) (s : State) : Out := gate (cfgPayloadBpsCommand p) s

/-- `CFG_OCC_LEN` (R197). -/
def execCfgOccLen (n : Byte) (s : State) : Out := gate (cfgOccLenCommand n) s

/-- `CFG_OCC_ENTRY` (R198). -/
def execCfgOccEntry (i : Byte) (c : Word) (s : State) : Out := gate (cfgOccEntryCommand i c) s

/-! ## Reset -/

/-- Every state element of R56 at its reset value; what was emitted is not withdrawn (R203). The header-register cells
are unspecified after it (R55), and `HR.len = 0` makes them so. What R56 does not list is kept: the commands still to
come, the parameters, and the model's own fields (log entry 13). -/
def State.resetAll (s : State) : State :=
  { s with
    cfg := .reset s.params
    fsm := .syncSearch
    dataReg := 0
    hrLen := 0
    nskip := 0
    payloadRemain := 0
    txCounter := 0
    fault := false
    lastErr := 0 }

/-- `RESET` (R203): runs even when `FAULT = 1`. -/
def execReset (s : State) : Out := .next (s.resetAll.respond .ok 0)

/-- `SYNC_RESET` once checks 1 to 4 of R86 have passed (R204). -/
def syncResetCommand (s : State) : Out := .next (s.framingReset.respond .ok 0)

/-- `SYNC_RESET` (R204). -/
def execSyncReset (s : State) : Out := gate syncResetCommand s

/-! ## Register access and no-op -/

/-- Whether a register number is assigned (R47, check 3 of R86). -/
def regAssigned (p : Params) (r : Nat) : Bool :=
  r ≤ 0x11 || (0x40 ≤ r && r < 0x40 + p.occMax) || (0x80 ≤ r && r < 0x80 + p.hrCap / 64)

/-- `HR_WORD[w]`: bit `63-k` is cell `64w+k` (R48). -/
def State.hrWord (w : Nat) (s : State) : Word := s.hrExtract (64 * w) 64

/-- The value of the numbered registers 0x00 to 0x11 (R47). -/
def fixedReg (s : State) (r : Nat) : Option Word :=
  match r with
  | 0x00 => some (s.fsm.code.setWidth 64)
  | 0x01 => some (errWord s.fault s.lastErr)
  | 0x02 => some (s.cfg.variant.code.setWidth 64)
  | 0x03 => some (s.cfg.acLen.setWidth 64)
  | 0x04 => some s.cfg.acPattern
  | 0x05 => some (s.cfg.threshold.setWidth 64)
  | 0x06 => some (s.cfg.bps.setWidth 64)
  | 0x07 => some (s.cfg.hdrUnits.setWidth 64)
  | 0x08 => some (s.cfg.payloadBps.setWidth 64)
  | 0x09 => some (s.cfg.occLen.setWidth 64)
  | 0x0A => some s.dataReg
  | 0x0B => some (s.hrLen.setWidth 64)
  | 0x0C => some s.nskip
  | 0x0D => some (s.payloadRemain.setWidth 64)
  | 0x0E => some (s.txCounter.setWidth 64)
  | 0x0F => some (BitVec.ofNat 64 s.cfg.headerNbits)
  | 0x10 => some (BitVec.ofNat 64 s.cfg.headerNbytes)
  | 0x11 => some (BitVec.ofNat 64 s.cfg.effL)
  | _ => none

/-- The value of an assigned register, zero-extended to 64 bits (R47); `none` for an `OCC[i]` that the table does not
hold. -/
def regValue (s : State) (r : Nat) : Option Word :=
  if r < 0x40 then fixedReg s r
  else if r < 0x80 then (s.cfg.occ[r - 0x40]?).map fun n => n.setWidth 64
  else some (s.hrWord (r - 0x80))

/-- The state after a register is read: unchanged, but that a read of `HR_WORD[w]` which met a cell with no value has
made a free draw (R55, R205). -/
def State.afterReadReg (r : Nat) (s : State) : State :=
  if r < 0x80 then s else s.afterRead (64 * (r - 0x80) + 64)

/-- `READ_REG r` (R205): runs even when `FAULT = 1`. -/
def execReadReg (r : Byte) (s : State) : Out :=
  if regAssigned s.params r.toNat then
    match regValue s r.toNat with
    | some v => .next ((s.afterReadReg r.toNat).respond .ok v)
    | none => .fault .occupancyWalk
  else .next (s.fail .illegal)

/-- `NOP` (R206): runs even when `FAULT = 1`. -/
def execNop (s : State) : Out := .next (s.respond .ok 0)

/-! ## The primitives as instructions of their own -/

/-- `FramingReset()` (R241). -/
def execFramingReset (s : State) : Out := .next s.framingReset

/-- `fail s` (R222); `OK` is no status of a failure (R11). -/
def execFail (st : Status) (s : State) : Out :=
  if failStatusOk st then .next (s.fail st) else .refused .illFormed

end Sys2Proof.Machine
end

