-- ==== Sys2Proof/Machine/Correlator.lean ====
section
/-! DEFINITION. The access-code correlator and the soft slicer (spec/42_correlator.md). -/

namespace Sys2Proof.Machine

/-- The correlator register after a bit: `((DATA_REG << 1) OR b) mod 2^64` (R120). -/
def shiftIn (data : Word) (b : Bool) : Word := (data <<< 1) ||| flagWord b

/-- `CorrStep(b)` (R120): the state with `DATA_REG` shifted, and the match signal. -/
def corrStep (b : Bool) (s : State) : State × Bool :=
  let data := shiftIn s.dataReg b
  ({ s with dataReg := data }, matchSignal s.cfg data)

/-- A binary32 NaN: exponent all ones and a non-zero fraction (R122, IEEE 754). -/
def softIsNaN (x : BitVec 32) : Bool := x.extractLsb' 23 8 == 0xFF#8 && x.extractLsb' 0 23 != 0#23

/-- A binary32 zero of either sign (R122, IEEE 754). -/
def softIsZero (x : BitVec 32) : Bool := x.extractLsb' 0 31 == 0#31

/-- `x < 0.0` in the IEEE 754 ordered comparison (R122): negative, not a NaN, not `-0.0`. -/
def softNegative (x : BitVec 32) : Bool := x.getLsbD 31 && !softIsNaN x && !softIsZero x

/-- `Slice(x)` (R122). -/
def sliceBit (x : BitVec 32) : Bool := !softNegative x

/-- `CorrStep(b)` as an instruction of its own (R120). -/
def execCorrStep (b : Bool) (s : State) : Out :=
  .next ((corrStep b s).1.returns (.bit (corrStep b s).2))

/-- `Slice(x)` as an instruction of its own (R122). -/
def execSlice (x : BitVec 32) (s : State) : Out := .next (s.returns (.bit (sliceBit x)))

end Sys2Proof.Machine
end

