-- ==== Sys2Proof/Machine/Crc.lean ====
section
/-! DEFINITION. The CRC-8 of the CRC, VariableBits and OFDM layouts (R131, R132, R65). -/

namespace Sys2Proof.Machine

/-- One of the eight shifts of R131: the outgoing bit selects the polynomial 0x07. -/
def crcShift (r : Byte) : Byte := if r.getLsbD 7 then (r <<< 1) ^^^ 0x07#8 else r <<< 1

/-- `n` shifts (R131). -/
def crcShifts : Nat → Byte → Byte
  | 0, r => r
  | n + 1, r => crcShifts n (crcShift r)

/-- One byte into the CRC register (R131). -/
def crcByte (r x : Byte) : Byte := crcShifts 8 (r ^^^ x)

/-- `crc8(bytes)`: polynomial 0x07, initial value 0xFF, no reflection, no final XOR (R131). -/
def crc8 (bytes : List Byte) : Byte := bytes.foldl crcByte 0xFF#8

/-- `crc_in(l, c) = LE_2(l) ‖ LE_2(c)` (R65). -/
def crcIn (l c : BitVec 12) : List Byte := bytesLe 2 (zext16 l).toNat ++ bytesLe 2 (zext16 c).toNat

/-- `crc_of(l, c)` (R132). -/
def crcOf (l c : BitVec 12) : Byte := crc8 (crcIn l c)

/-- `crc8` as an instruction of its own (R131). -/
def execCrc8 (bytes : List Byte) (s : State) : Out := .next (s.returns (.word ((crc8 bytes).setWidth 64)))

/-- `crc_of` as an instruction of its own (R132). -/
def execCrcOf (l c : BitVec 12) (s : State) : Out := .next (s.returns (.word ((crcOf l c).setWidth 64)))

end Sys2Proof.Machine
end

