-- ==== Sys2Proof/Machine/Formatters.lean ====
section
/-! DEFINITION. The five header layouts (spec/43_formatters.md): `format_bytes`, `hdr_ok` and `hdr_payload` of each,
the scramble sequence, the OFDM symbol count, and the layout interface of R130 that the state machine and `FORMAT` call. -/

namespace Sys2Proof.Machine

/-! ## Shared by the layouts -/

/-- A record of layout `v` with `payload_bits = 8*len` and every other field 0 but `len` (R45: `len` is "in the struct
for all"; log entry 9). `skip` is added by R172. -/
def baseRecord (v : Variant) (len : Half) : Record where
  variant := v
  payloadBits := BitVec.ofNat 32 (8 * len.toNat)
  skip := 0
  len := len
  bps := 0
  counter := 0
  ofdmSymbols := 0

/-- `BPS` as the width of a unit; 0 is no legal value (R25). -/
def unitWidth (s : State) : Except Fault Nat :=
  if s.cfg.bps = 0#4 then .error .zeroBitsPerSymbol else .ok s.cfg.bps.toNat

/-- Two 16-bit copies of the length, big-endian, after the access code: the part Default and Counter share (R140, R143).
Of the stated precondition, `effL mod 8 = 0` and `L <= 65535`, the first is needed for `effL/8` to be a number of bytes; a
longer `L` is taken modulo `2^16` by `HBAddField` (R101). `FORMAT` checks both first (log entry 11). -/
def codeAndLengths (len : Word) (s : State) : Except Fault State :=
  if s.cfg.effL % 8 = 0 then
    .ok (((s.addField .bits64 (s.cfg.effL / 8) s.cfg.acPattern.toNat false).addField .bits16 2 len.toNat
      false).addField .bits16 2 len.toNat false)
  else .error .formatPrecondition

/-- The packet counter after a 12-bit layout has sent `c`: `(c + 1) mod 2^12` (R41, R146, R150). -/
def counterAfter12 (c : BitVec 12) : Half := zext16 (c + 1)

/-! ## Default (VARIANT 0) -/

/-- `Default.format_bytes(L)` (R140). -/
def defaultFormatBytes (len : Word) (s : State) : Except Fault State := codeAndLengths len s

/-- `Default.hdr_ok()`: the two length copies are equal (R141). -/
def defaultHdrOk (s : State) : Bool := fieldMsb s.hrCell 0 16 = fieldMsb s.hrCell 16 16

/-- `Default.hdr_payload()` (R142). -/
def defaultHdrPayload (s : State) : Half × Record :=
  let len := BitVec.ofNat 16 (fieldMsb s.hrCell 0 16)
  (len, baseRecord .default len)

/-! ## Counter (VARIANT 1) -/

/-- `Counter.format_bytes(L)` (R143): the counter is sent before it is incremented. -/
def counterFormatBytes (len : Word) (s : State) : Except Fault State :=
  match codeAndLengths len s with
  | .error f => .error f
  | .ok t =>
    let u := (t.addField .bits16 2 s.cfg.bps.toNat false).addField .bits16 2 s.txCounter.toNat false
    .ok { u with txCounter := s.txCounter + 1 }

/-- `Counter.hdr_ok()`: only the two length copies are checked (R144). -/
def counterHdrOk (s : State) : Bool := fieldMsb s.hrCell 0 16 = fieldMsb s.hrCell 16 16

/-- `Counter.hdr_payload()` (R145). -/
def counterHdrPayload (s : State) : Half × Record :=
  let len := BitVec.ofNat 16 (fieldMsb s.hrCell 0 16)
  (len, { baseRecord .counter len with
    bps := BitVec.ofNat 16 (fieldMsb s.hrCell 32 16)
    counter := BitVec.ofNat 16 (fieldMsb s.hrCell 48 16) })

/-! ## CRC (VARIANT 2) -/

/-- The 32-bit word of the CRC layout, `(c << 20) OR (l << 8) OR k` (R146). -/
def crcHeaderWord (l c : BitVec 12) : BitVec 32 := c ++ (l ++ crcOf l c)

/-- `CRC.format_bytes(L)` (R146). -/
def crcFormatBytes (len : Word) (s : State) : State :=
  let l := field12 len
  let c := field12 s.txCounter
  { s.addField .bits32 4 (crcHeaderWord l c).toNat false with txCounter := counterAfter12 c }

/-- The received counter of the CRC layout (R147). -/
def crcHdrCounter (s : State) : BitVec 12 := BitVec.ofNat 12 (fieldMsb s.hrCell 0 12)

/-- The received length of the CRC layout (R147). -/
def crcHdrLen (s : State) : BitVec 12 := BitVec.ofNat 12 (fieldMsb s.hrCell 12 12)

/-- The received CRC of the CRC layout (R147). -/
def crcHdrCrc (s : State) : Byte := BitVec.ofNat 8 (fieldMsb s.hrCell 24 8)

/-- `CRC.hdr_ok()` (R147). -/
def crcHdrOk (s : State) : Bool := crcOf (crcHdrLen s) (crcHdrCounter s) = crcHdrCrc s

/-- `CRC.hdr_payload()` (R148). -/
def crcHdrPayload (s : State) : Half × Record :=
  (zext16 (crcHdrLen s), { baseRecord .crc (zext16 (crcHdrLen s)) with counter := zext16 (crcHdrCounter s) })

/-! ## VariableBits (VARIANT 3) -/

/-- `pack(v, width)` of R150: `b` bits per unit, LSB first. -/
def packUnits (b v width : Nat) : List Byte :=
  (List.range (ceilDiv width b)).map fun k => BitVec.ofNat 8 (v / 2 ^ (k * b) % 2 ^ b)

/-- The units of a header that hold the three fields (R150). -/
def fieldUnits (b : Nat) (l c : BitVec 12) : List Byte :=
  packUnits b l.toNat 12 ++ packUnits b c.toNat 12 ++ packUnits b (crcOf l c).toNat 8

/-- The units of a header: the fields, then zero fill up to `HDR_UNITS` (R149, R150). With `HDR_UNITS < min_units(BPS)`,
where the rule's fill count is negative, there is no fill and all field units are written, more than `HDR_UNITS` of them:
the model's choice (log entry 21). No command reaches that case, since a valid VariableBits or OFDM configuration has
`HDR_UNITS >= min_units(BPS)` (R30). -/
def headerUnits (b hdrUnits : Nat) (l c : BitVec 12) : List Byte :=
  fieldUnits b l c ++ List.replicate (hdrUnits - (fieldUnits b l c).length) 0

/-- `HBAddField(8, 1, u, 0)` for each unit in order (R150). -/
def State.addUnits (units : List Byte) (s : State) : State :=
  units.foldl (fun t u => t.addField .bits8 1 u.toNat false) s

/-- `VariableBits.format_bytes(L)` (R150). -/
def variableBitsFormatBytes (len : Word) (s : State) : Except Fault State :=
  match unitWidth s with
  | .error f => .error f
  | .ok b =>
    let l := field12 len
    let c := field12 s.txCounter
    .ok { s.addUnits (headerUnits b s.cfg.hdrUnits.toNat l c) with txCounter := counterAfter12 c }

/-- The three received fields of a VariableBits header over a bit sequence, `(l, c, k)` (R152). -/
def unitFields (bits : Nat → Bool) (b : Nat) : BitVec 12 × BitVec 12 × Byte :=
  let u12 := ceilDiv 12 b
  (BitVec.ofNat 12 (fieldLsb bits 0 12), BitVec.ofNat 12 (fieldLsb bits (u12 * b) 12),
    BitVec.ofNat 8 (fieldLsb bits (2 * u12 * b) 8))

/-- Validation of three received fields (R152). -/
def unitFieldsOk (f : BitVec 12 × BitVec 12 × Byte) : Bool := crcOf f.1 f.2.1 = f.2.2

/-- `VariableBits.hdr_ok()`: padding bits and fill units are not examined (R152). -/
def variableBitsHdrOk (s : State) : Except Fault Bool :=
  match unitWidth s with
  | .error f => .error f
  | .ok b => .ok (unitFieldsOk (unitFields s.hrCell b))

/-- `VariableBits.hdr_payload()` (R153). -/
def variableBitsHdrPayload (s : State) : Except Fault (Half × Record) :=
  match unitWidth s with
  | .error f => .error f
  | .ok b =>
    let f := unitFields s.hrCell b
    .ok (zext16 f.1, { baseRecord .variableBits (zext16 f.1) with counter := zext16 f.2.1 })

/-! ## OFDM (VARIANT 4) -/

/-- `SEQ[j]` (R151). -/
def seqBit (p : Params) (j : Nat) : Bool := p.scrambleSeq[j]?.getD false

/-- The mask of unit `k`, the sum of `SEQ[k*BPS + q] * 2^q` for `q < BPS` (R154). -/
def scrambleUnit (p : Params) (b k : Nat) : Byte := BitVec.ofNat 8 (fieldLsb (seqBit p) (k * b) b)

/-- The highest bit index + 1 that the fields of a units header reach (R149). -/
def unitSpan (b : Nat) : Nat := 2 * ceilDiv 12 b * b + 8

/-- The highest bit index + 1 that the length and counter of a units header reach (R149). -/
def unitPayloadSpan (b : Nat) : Nat := ceilDiv 12 b * b + 12

/-- `BPS` as the width of a unit of a scrambled header: `SEQ` must reach the header's last bit (R151). -/
def scrambledWidth (s : State) : Except Fault Nat :=
  match unitWidth s with
  | .error f => .error f
  | .ok b =>
    if max (s.cfg.hdrUnits.toNat * b) (unitSpan b) ≤ s.params.scrambleSeq.length then .ok b
    else .error .scrambleExhausted

/-- `HB[k] <- HB[k] XOR mask_k` for `k` from 0 to `HDR_UNITS - 1` (R154); a field unit beyond them, which only `OFDM.format_bytes`
run alone can write, is not masked (log entry 21). -/
def State.scramble (b : Nat) (s : State) : State :=
  { s with hb := s.hb.mapIdx fun k u => if k < s.cfg.hdrUnits.toNat then u ^^^ scrambleUnit s.params b k else u }

/-- `OFDM.format_bytes(L)`: the VariableBits header, then the mask (R154). -/
def ofdmFormatBytes (len : Word) (s : State) : Except Fault State :=
  match scrambledWidth s with
  | .error f => .error f
  | .ok b =>
    match variableBitsFormatBytes len s with
    | .error f => .error f
    | .ok t => .ok (t.scramble b)

/-- The walk of R155 from `acc`, `n`, `k`, stopped after `fuel` entries: `none` if the goal is not reached by then or an
entry is missing. -/
def occupancyWalk (occ : List Half) (occLen bitsPerCarrier goal : Nat) : Nat → Nat → Nat → Nat → Option Nat
  | 0, acc, n, _ => if acc < goal then none else some n
  | fuel + 1, acc, n, k =>
    if acc < goal then
      match occ[k]? with
      | none => none
      | some c =>
        occupancyWalk occ occLen bitsPerCarrier goal fuel (acc + c.toNat * bitsPerCarrier) (n + 1)
          ((k + 1) % occLen)
    else some n

/-- `ofdm_symbols(P)` (R155). Each turn of the in-use table adds at least one bit in a valid OFDM configuration, so
`P * OCC_LEN` entries suffice; a walk that has not ended by then never ends. The count is 32 bits. -/
def ofdmSymbols (p : Nat) (s : State) : Except Fault (BitVec 32) :=
  match occupancyWalk s.cfg.occ s.cfg.occLen.toNat s.cfg.payloadBps.toNat p (p * s.cfg.occLen.toNat) 0 0 0 with
  | none => .error .occupancyWalk
  | some n => .ok (BitVec.ofNat 32 n)

/-- `OFDM.hdr_ok()`: R152 on the descrambled bits; `HR` is not changed (R156). -/
def ofdmHdrOk (s : State) : Except Fault Bool :=
  match scrambledWidth s with
  | .error f => .error f
  | .ok b => .ok (unitFieldsOk (unitFields s.hrDescrambled b))

/-- `OFDM.hdr_payload()` (R157). -/
def ofdmHdrPayload (s : State) : Except Fault (Half × Record) :=
  match scrambledWidth s with
  | .error f => .error f
  | .ok b =>
    let f := unitFields s.hrDescrambled b
    match ofdmSymbols (8 * f.1.toNat) s with
    | .error e => .error e
    | .ok n =>
      .ok (zext16 f.1, { baseRecord .ofdm (zext16 f.1) with counter := zext16 f.2.1, ofdmSymbols := n })

/-! ## The layout interface (R130) -/

/-- `format_bytes` of the selected layout (R130, R16). -/
def formatBytes (len : Word) (s : State) : Except Fault State :=
  match s.cfg.variant with
  | .default => defaultFormatBytes len s
  | .counter => counterFormatBytes len s
  | .crc => .ok (crcFormatBytes len s)
  | .variableBits => variableBitsFormatBytes len s
  | .ofdm => ofdmFormatBytes len s

/-- `hdr_ok` of the selected layout (R130, R16). -/
def hdrOk (s : State) : Except Fault Bool :=
  match s.cfg.variant with
  | .default => .ok (defaultHdrOk s)
  | .counter => .ok (counterHdrOk s)
  | .crc => .ok (crcHdrOk s)
  | .variableBits => variableBitsHdrOk s
  | .ofdm => ofdmHdrOk s

/-- `hdr_payload` of the selected layout (R130, R16). -/
def hdrPayload (s : State) : Except Fault (Half × Record) :=
  match s.cfg.variant with
  | .default => .ok (defaultHdrPayload s)
  | .counter => .ok (counterHdrPayload s)
  | .crc => .ok (crcHdrPayload s)
  | .variableBits => variableBitsHdrPayload s
  | .ofdm => ofdmHdrPayload s

/-- The highest cell + 1 that the selected layout's validation and extraction read (R112). -/
def hdrSpan (c : CfgRegs) : Nat :=
  match c.variant with
  | .default => 32
  | .counter => 64
  | .crc => 32
  | .variableBits => unitSpan c.bps.toNat
  | .ofdm => unitSpan c.bps.toNat

/-! ## The primitives as instructions of their own -/

/-- `Default.format_bytes(L)` (R140). -/
def execDefaultFormatBytes (len : Word) (s : State) : Out := outcome (defaultFormatBytes len s)

/-- `Default.hdr_ok()` (R141). -/
def execDefaultHdrOk (s : State) : Out := .next ((s.afterRead 32).returns (.bit (defaultHdrOk s)))

/-- `Default.hdr_payload()` (R142). -/
def execDefaultHdrPayload (s : State) : Out :=
  .next ((s.afterRead 16).returns (.payload (defaultHdrPayload s).1 (defaultHdrPayload s).2))

/-- `Counter.format_bytes(L)` (R143). -/
def execCounterFormatBytes (len : Word) (s : State) : Out := outcome (counterFormatBytes len s)

/-- `Counter.hdr_ok()` (R144). -/
def execCounterHdrOk (s : State) : Out := .next ((s.afterRead 32).returns (.bit (counterHdrOk s)))

/-- `Counter.hdr_payload()` (R145). -/
def execCounterHdrPayload (s : State) : Out :=
  .next ((s.afterRead 64).returns (.payload (counterHdrPayload s).1 (counterHdrPayload s).2))

/-- `CRC.format_bytes(L)` (R146). -/
def execCrcFormatBytes (len : Word) (s : State) : Out := .next (crcFormatBytes len s)

/-- `CRC.hdr_ok()` (R147). -/
def execCrcHdrOk (s : State) : Out := .next ((s.afterRead 32).returns (.bit (crcHdrOk s)))

/-- `CRC.hdr_payload()` (R148). -/
def execCrcHdrPayload (s : State) : Out :=
  .next ((s.afterRead 24).returns (.payload (crcHdrPayload s).1 (crcHdrPayload s).2))

/-- `VariableBits.format_bytes(L)` (R150). -/
def execVariableBitsFormatBytes (len : Word) (s : State) : Out := outcome (variableBitsFormatBytes len s)

/-- `VariableBits.hdr_ok()` (R152). -/
def execVariableBitsHdrOk (s : State) : Out :=
  match variableBitsHdrOk s with
  | .error f => .fault f
  | .ok v => .next ((s.afterRead (unitSpan s.cfg.bps.toNat)).returns (.bit v))

/-- `VariableBits.hdr_payload()` (R153). -/
def execVariableBitsHdrPayload (s : State) : Out :=
  match variableBitsHdrPayload s with
  | .error f => .fault f
  | .ok (len, r) => .next ((s.afterRead (unitPayloadSpan s.cfg.bps.toNat)).returns (.payload len r))

/-- `SEQ`, the bit sequence itself (R151). -/
def execSeq (s : State) : Out := .next (s.returns (.bits s.params.scrambleSeq))

/-- `OFDM.format_bytes(L)` (R154). -/
def execOfdmFormatBytes (len : Word) (s : State) : Out := outcome (ofdmFormatBytes len s)

/-- `ofdm_symbols(P)` (R155). -/
def execOfdmSymbols (p : BitVec 32) (s : State) : Out :=
  match ofdmSymbols p.toNat s with
  | .error f => .fault f
  | .ok n => .next (s.returns (.word (n.setWidth 64)))

/-- `OFDM.hdr_ok()` (R156). -/
def execOfdmHdrOk (s : State) : Out :=
  match ofdmHdrOk s with
  | .error f => .fault f
  | .ok v => .next ((s.afterRead (unitSpan s.cfg.bps.toNat)).returns (.bit v))

/-- `OFDM.hdr_payload()` (R157). -/
def execOfdmHdrPayload (s : State) : Out :=
  match ofdmHdrPayload s with
  | .error f => .fault f
  | .ok (len, r) => .next ((s.afterRead (unitPayloadSpan s.cfg.bps.toNat)).returns (.payload len r))

end Sys2Proof.Machine
end

