-- ==== Sys2Proof/Machine/Framing.lean ====
section
/-! DEFINITION. The framing state machine (spec/44_framing_fsm.md), the push commands and `FORMAT` (R160). -/

namespace Sys2Proof.Machine

/-! ## One stream bit -/

/-- `NSKIP <- (NSKIP + 1) mod 2^64` (R170, R39). -/
def State.skipBit (s : State) : State := { s with nskip := s.nskip + 1 }

/-- A sync match: `STATE <- HaveSync`, and the header register is emptied (R171). -/
def State.sync (s : State) : State := State.hrClear { s with fsm := .haveSync }

/-- The end of a failed header: `STATE <- SyncSearch`, and the header register is emptied (R175). -/
def State.dropHeader (s : State) : State := State.hrClear { s with fsm := .syncSearch }

/-- The payload count of a valid header, `(8*len) div BPS` (R173). -/
def payloadCount (len : Half) (c : CfgRegs) : Except Fault (BitVec 32) :=
  if c.bps = 0#4 then .error .zeroBitsPerSymbol
  else .ok (BitVec.ofNat 32 (8 * len.toNat / c.bps.toNat))

/-- The state after the record of a valid header is emitted: `rec.skip <- NSKIP`, `NSKIP <- 0`, the header register
emptied (R172). -/
def State.deliver (r : Record) (s : State) : State :=
  State.hrClear { s.emitRec { r with skip := s.nskip } with nskip := 0 }

/-- Where a valid header leads: back to search when there is no payload bit to count, to `HaveHeader` otherwise (R172). -/
def State.startPayload (count : BitVec 32) (s : State) : State :=
  if count = 0#32 then { s with fsm := .syncSearch }
  else { s with fsm := .haveHeader, payloadRemain := count }

/-- `JudgeHeader()` (R172, R175): the state and the `emitted` flag. -/
def judgeHeader (s : State) : Except Fault (State × Bool) :=
  match hdrOk s with
  | .error f => .error f
  | .ok false => .ok ((s.afterRead (hdrSpan s.cfg)).dropHeader, false)
  | .ok true =>
    match hdrPayload s with
    | .error f => .error f
    | .ok (len, r) =>
      match payloadCount len s.cfg with
      | .error f => .error f
      | .ok count => .ok ((((s.afterRead (hdrSpan s.cfg)).deliver r).startPayload count), true)

/-- The move of an empty access code: no bit is consumed by it (R125, R170). -/
def emptyCodeMove (s : State) : State :=
  if s.fsm = .syncSearch ∧ s.cfg.effL = 0 then s.sync else s

/-- A bit consumed in `SyncSearch` with `effL > 0` (R170, R171). -/
def searchBit (b : Bool) (s : State) : State :=
  if (corrStep b s).2 then (corrStep b s).1.skipBit.sync else (corrStep b s).1.skipBit

/-- A bit consumed in `HaveSync` (R170). -/
def headerBit (b : Bool) (s : State) : Except Fault (State × Bool) :=
  match hrInsert b s with
  | .error f => .error f
  | .ok t => if t.hrLen.toNat = t.cfg.htgt then judgeHeader t.skipBit else .ok (t.skipBit, false)

/-- A bit consumed in `HaveHeader` (R174). -/
def payloadBit (s : State) : Except Fault State :=
  if s.payloadRemain = 0#32 then .error .payloadUnderflow
  else .ok { s with
    payloadRemain := s.payloadRemain - 1
    fsm := if s.payloadRemain - 1 = 0#32 then .syncSearch else s.fsm }

/-- A bit consumed in the state in effect after the `effL = 0` move (R170). -/
def consumeIn (b : Bool) (s : State) : Except Fault (State × Bool) :=
  match s.fsm with
  | .syncSearch => .ok (searchBit b s, false)
  | .haveSync => headerBit b s
  | .haveHeader =>
    match payloadBit s with
    | .error f => .error f
    | .ok t => .ok (t, false)

/-- `ConsumeBit(b)` (R170): the state and the `emitted` flag. -/
def consumeBit (b : Bool) (s : State) : Except Fault (State × Bool) := consumeIn b (emptyCodeMove s)

/-- `ConsumeBit` and the response of a push command: `respond(OK, zext_64(e))` (R176 to R178). -/
def pushStream (b : Bool) (s : State) : Out :=
  match consumeBit b s with
  | .error f => .fault f
  | .ok (t, e) => .next (t.respond .ok (flagWord e))

/-- `PUSH_BIT b` (R176). -/
def execPushBit (b : Bool) (s : State) : Out := gate (pushStream b) s

/-- `PUSH_SOFT x` (R178). -/
def execPushSoft (x : BitVec 32) (s : State) : Out := gate (pushStream (sliceBit x)) s

/-! ## FORMAT -/

/-- The value checks of `FORMAT`, in order: `FMT_UNSUP`, then `FMT_LEN`, in Default and Counter only (R160, R223). -/
def formatCheck (len : Word) (c : CfgRegs) : Option Status :=
  if c.variant.hasCode then
    if c.effL % 8 ≠ 0 then some .fmtUnsup
    else if 65535 < len.toNat then some .fmtLen
    else none
  else none

/-- The header built in an empty buffer and emitted; the buffer holds nothing afterwards (R61, R160). -/
def buildHeader (len : Word) (s : State) : Except Fault State :=
  match formatBytes len s.hbClear with
  | .error f => .error f
  | .ok t =>
    match emitHeader s.cfg.headerNbytes t with
    | .error f => .error f
    | .ok u => .ok u.hbClear

/-- `FORMAT L` once checks 1 to 4 of R86 have passed (R160). -/
def formatCommand (len : Word) (s : State) : Out :=
  match formatCheck len s.cfg with
  | some st => .next (s.fail st)
  | none =>
    match buildHeader len s with
    | .error f => .fault f
    | .ok t => .next (t.respond .ok (BitVec.ofNat 64 s.cfg.headerNbytes))

/-- `FORMAT L` (R160). -/
def execFormat (len : Word) (s : State) : Out := gate (formatCommand len) s

/-! ## The primitives as instructions of their own -/

/-- `ConsumeBit(b)` (R170). -/
def execConsumeBit (b : Bool) (s : State) : Out :=
  match consumeBit b s with
  | .error f => .fault f
  | .ok (t, e) => .next (t.returns (.bit e))

/-- `JudgeHeader()` (R172). -/
def execJudgeHeader (s : State) : Out :=
  match judgeHeader s with
  | .error f => .fault f
  | .ok (t, e) => .next (t.returns (.bit e))

end Sys2Proof.Machine
end

