-- ==== Sys2Proof/Machine/HeaderBuffer.lean ====
section
/-! DEFINITION. The HeaderBuffer primitives (spec/40_header_buffer.md) as instructions of their own. -/

namespace Sys2Proof.Machine

/-- `HBAddField(N, w, v, bs)` (R101); `w > N/8` is outside the operand range. -/
def execHbAddField (n : Overload) (w : Nat) (v : Word) (bs : Bool) (s : State) : Out :=
  if fieldWidthOk n w then .next (s.addField n w v.toNat bs) else .refused .illFormed

/-- `HBAddField` with `bs = 1`, the already-big-endian form (R102). -/
def execHbAddFieldBigEndian (n : Overload) (w : Nat) (v : Word) (s : State) : Out :=
  if fieldWidthOk n w then .next (s.addField n w v.toNat true) else .refused .illFormed

/-- `HBLength()` returns `HB.cur` (R104). -/
def execHbLength (s : State) : Out := .next (s.returns (.word (BitVec.ofNat 64 s.hbCur)))

end Sys2Proof.Machine
end

