-- ==== Sys2Proof/Machine/HeaderRegister.lean ====
section
/-! DEFINITION. The HeaderRegister primitives (spec/41_header_register.md) as instructions of their own. -/

namespace Sys2Proof.Machine

/-- `HR.insert(b)` (R110). -/
def execHrInsert (b : Bool) (s : State) : Out := outcome (hrInsert b s)

/-- `HR.extract(off, w)`, first bit as the most significant (R111); missing cells are free draws (R112). -/
def execHrExtract (off w : Nat) (s : State) : Out :=
  if extractWidthOk w then .next ((s.afterRead (off + w)).returns (.word (s.hrExtract off w)))
  else .refused .illFormed

/-- `HR.extract_lsb(off, w)`, first bit as the least significant (R113). -/
def execHrExtractLsb (off w : Nat) (s : State) : Out :=
  if extractWidthOk w then .next ((s.afterRead (off + w)).returns (.word (s.hrExtractLsb off w)))
  else .refused .illFormed

/-- `HR.clear()` (R114). -/
def execHrClear (s : State) : Out := .next s.hrClear

end Sys2Proof.Machine
end

