-- ==== Sys2Proof/Machine/Dispatch.lean ====
section
/-! DEFINITION. One arm per row of spec/opcode_table.json, each a direct call of the row's meaning. -/

namespace Sys2Proof.Machine

/-- The meaning of an instruction. -/
def exec (i : Instr) (s : State) : Host.Outcome State Fault Refusal :=
  match i with
  | .nop => Sys2Proof.Machine.execNop s
  | .reset => Sys2Proof.Machine.execReset s
  | .syncReset => Sys2Proof.Machine.execSyncReset s
  | .cfgVariant v => Sys2Proof.Machine.execCfgVariant v s
  | .cfgAccessCode n p => Sys2Proof.Machine.execCfgAccessCode n p s
  | .cfgThreshold t => Sys2Proof.Machine.execCfgThreshold t s
  | .cfgBps b => Sys2Proof.Machine.execCfgBps b s
  | .cfgHdrUnits u => Sys2Proof.Machine.execCfgHdrUnits u s
  | .cfgPayloadBps p => Sys2Proof.Machine.execCfgPayloadBps p s
  | .cfgOccLen n => Sys2Proof.Machine.execCfgOccLen n s
  | .cfgOccEntry idx c => Sys2Proof.Machine.execCfgOccEntry idx c s
  | .pushBit b => Sys2Proof.Machine.execPushBit b s
  | .pushSoft x => Sys2Proof.Machine.execPushSoft x s
  | .format len => Sys2Proof.Machine.execFormat len s
  | .readReg r => Sys2Proof.Machine.execReadReg r s
  | .hbAddField n w v bs => Sys2Proof.Machine.execHbAddField n w v bs s
  | .hbAddFieldBigEndian n w v => Sys2Proof.Machine.execHbAddFieldBigEndian n w v s
  | .hbLength => Sys2Proof.Machine.execHbLength s
  | .hrInsert b => Sys2Proof.Machine.execHrInsert b s
  | .hrExtract off w => Sys2Proof.Machine.execHrExtract off w s
  | .hrExtractLsb off w => Sys2Proof.Machine.execHrExtractLsb off w s
  | .hrClear => Sys2Proof.Machine.execHrClear s
  | .corrStep b => Sys2Proof.Machine.execCorrStep b s
  | .slice x => Sys2Proof.Machine.execSlice x s
  | .crc8 bytes => Sys2Proof.Machine.execCrc8 bytes s
  | .crcOf l c => Sys2Proof.Machine.execCrcOf l c s
  | .defaultFormatBytes len => Sys2Proof.Machine.execDefaultFormatBytes len s
  | .defaultHdrOk => Sys2Proof.Machine.execDefaultHdrOk s
  | .defaultHdrPayload => Sys2Proof.Machine.execDefaultHdrPayload s
  | .counterFormatBytes len => Sys2Proof.Machine.execCounterFormatBytes len s
  | .counterHdrOk => Sys2Proof.Machine.execCounterHdrOk s
  | .counterHdrPayload => Sys2Proof.Machine.execCounterHdrPayload s
  | .crcFormatBytes len => Sys2Proof.Machine.execCrcFormatBytes len s
  | .crcHdrOk => Sys2Proof.Machine.execCrcHdrOk s
  | .crcHdrPayload => Sys2Proof.Machine.execCrcHdrPayload s
  | .variableBitsFormatBytes len => Sys2Proof.Machine.execVariableBitsFormatBytes len s
  | .variableBitsHdrOk => Sys2Proof.Machine.execVariableBitsHdrOk s
  | .variableBitsHdrPayload => Sys2Proof.Machine.execVariableBitsHdrPayload s
  | .seq => Sys2Proof.Machine.execSeq s
  | .ofdmFormatBytes len => Sys2Proof.Machine.execOfdmFormatBytes len s
  | .ofdmSymbols p => Sys2Proof.Machine.execOfdmSymbols p s
  | .ofdmHdrOk => Sys2Proof.Machine.execOfdmHdrOk s
  | .ofdmHdrPayload => Sys2Proof.Machine.execOfdmHdrPayload s
  | .consumeBit b => Sys2Proof.Machine.execConsumeBit b s
  | .judgeHeader => Sys2Proof.Machine.execJudgeHeader s
  | .framingReset => Sys2Proof.Machine.execFramingReset s
  | .fail st => Sys2Proof.Machine.execFail st s

end Sys2Proof.Machine
end

