-- ==== Sys2Proof/Machine/Step.lean ====
section
/-! DEFINITION. One step of the block: the next command of the command port is taken, decoded and run (R12, R74). -/

namespace Sys2Proof.Machine

/-- One step. With no command on the port the block is idle and every state element keeps its value (R229); a command
word that checks 1 and 2 of R86 refuse is answered with `ILLEGAL`. -/
def step (s : State) : Host.Outcome State Fault Refusal :=
  match s.takeCommand with
  | none => .next s
  | some (c, t) =>
    match decode c with
    | .ok i => exec i t
    | .error e => .next (t.rejectCommand e)

/-- The state with the command of a table word at the head of the command port, so that the very next step takes it
(log entry 5); how the word lies in the transaction is log entry 19. -/
def State.withFetchWord (s : State) (nbits w : Nat) : State := s.present (commandOfTableWord nbits w)

end Sys2Proof.Machine
end

