-- ==== Sys2Proof/Machine/Assembler.lean ====
section
/-! DEFINITION. The assembly syntax and the pseudo-commands (R88 to R90): a line of text to the commands it stands
for. No step of the machine uses this file; programs are written with it. What R88 and R89 leave to the assembler is log
entry 14, and where the programs of spec/95_test_vectors.md write bytes otherwise than R88 is log entry 20. -/

namespace Sys2Proof.Asm

/-! ## Operands -/

/-- One operand of a line. -/
inductive Operand where
  /-- A `0x` integer or bit pattern. -/
  | hex (v : Nat)
  /-- A decimal: a sign, the digits read as one integer, and how many of them follow the point. -/
  | dec (neg : Bool) (digits scale : Nat)
  /-- A quoted string. -/
  | text (s : List Char)
  /-- A register name of R47, with its index for `OCC[i]` and `HR_WORD[w]`. -/
  | name (s : List Char) (index : Option Nat)
deriving DecidableEq, Repr

/-- The value of a digit character in bases up to 16. -/
def digitValue (c : Char) : Option Nat :=
  if '0' ≤ c ∧ c ≤ '9' then some (c.toNat - '0'.toNat)
  else if 'a' ≤ c ∧ c ≤ 'f' then some (c.toNat - 'a'.toNat + 10)
  else if 'A' ≤ c ∧ c ≤ 'F' then some (c.toNat - 'A'.toNat + 10)
  else none

/-- The digits of a base, most significant first, from an accumulated value. -/
def digitsFrom (base : Nat) : List Char → Nat → Option Nat
  | [], acc => some acc
  | c :: cs, acc =>
    match digitValue c with
    | some d => if d < base then digitsFrom base cs (acc * base + d) else none
    | none => none

/-- A non-empty run of digits of a base. -/
def digits (base : Nat) (cs : List Char) : Option Nat := if cs = [] then none else digitsFrom base cs 0

/-- A decimal integer, or a decimal float with a digit on each side of its point; R88 gives no form for one without, and
`.5`, `-.5` and `5.` are refused alike (the model's choice, log entry 14). -/
def parseDec (neg : Bool) (cs : List Char) : Option Operand :=
  let whole := cs.takeWhile (· ≠ '.')
  let frac := (cs.dropWhile (· ≠ '.')).drop 1
  if cs.contains '.' then
    if whole = [] ∨ frac = [] then none else (digits 10 (whole ++ frac)).map fun v => .dec neg v frac.length
  else (digits 10 cs).map fun v => .dec neg v 0

/-- A register name of R47, possibly indexed. The spec gives the index in `OCC[i]` and `HR_WORD[w]` no form: that it is
decimal, and `OCC[0x3]` refused, is the model's choice (log entry 14). -/
def parseName (cs : List Char) : Option Operand :=
  let base := cs.takeWhile (· ≠ '[')
  match cs.dropWhile (· ≠ '[') with
  | [] => some (.name base none)
  | _ :: rest =>
    if rest.getLast? = some ']' then (digits 10 rest.dropLast).map fun i => .name base (some i) else none

/-- One operand from its characters, without the white space around them. An empty text is refused: an operand is missing
there (log entry 14). A quoted operand keeps its characters as they stand, white space too (R90). An integer is decimal or `0x` hexadecimal, as
R88 says, in every command: the bare hexadecimal bytes that spec/95_test_vectors.md writes after `PUSH_BYTES` and
`PUSH_UNITS` are not read as such, `AA` being refused and `64` being sixty-four (the model's choice between the two,
log entry 20). -/
def parseOperand (cs : List Char) : Option Operand :=
  match cs with
  | [] => none
  | '0' :: 'x' :: rest => (digits 16 rest).map .hex
  | '-' :: rest => parseDec true rest
  | '"' :: rest => if rest.getLast? = some '"' then some (.text rest.dropLast) else none
  | c :: rest => if c.isDigit then parseDec false (c :: rest) else parseName (c :: rest)

/-- An operand used as an unsigned integer below a bound (R88: "decimal or `0x` hexadecimal integers"). -/
def Operand.int (bound : Nat) : Operand → Option Nat
  | .hex v => if v < bound then some v else none
  | .dec neg v scale => if !neg && scale = 0 && v < bound then some v else none
  | .text _ => none
  | .name _ _ => none

/-! ## Decimal floats to binary32 (R88: round-to-nearest-even) -/

/-- `num/den` rounded to the nearest integer, a tie to the even one. -/
def roundEven (num den : Nat) : Nat :=
  let q := num / den
  let r := num % den
  if den < 2 * r ∨ (2 * r = den ∧ q % 2 = 1) then q + 1 else q

/-- The smallest exponent from `e` on, within `fuel` steps, at which `num/(den*2^e)` is below `2^24`. -/
def floatExponent (num den : Nat) : Nat → Nat → Nat
  | 0, e => e
  | fuel + 1, e => if num < den * 2 ^ e * 2 ^ 24 then e else floatExponent num den fuel (e + 1)

/-- The binary32 pattern of `±(num/den)`: the significand in units of `2^(e-149)`, rounded to even, an overflow to
infinity. -/
def floatBits (neg : Bool) (num den : Nat) : Nat :=
  let e := floatExponent (num * 2 ^ 149) den 300 0
  let bits := min 0x7F800000 (e * 2 ^ 23 + roundEven (num * 2 ^ 149) (den * 2 ^ e))
  (if neg then 2 ^ 31 else 0) + bits

/-- The operand of `PUSH_SOFT`: a decimal float, or a `0x` bit pattern (R88). -/
def Operand.soft : Operand → Option Nat
  | .hex v => if v < 2 ^ 64 then some v else none
  | .dec neg v scale => some (floatBits neg v (10 ^ scale))
  | .text _ => none
  | .name _ _ => none

/-! ## Register names (R47) -/

/-- The register number of a name; `READ_REG` accepts it (R88). -/
def regNumber (s : String) (index : Option Nat) : Option Nat :=
  match index with
  | some i =>
    if s = "OCC" then if i < 0x40 then some (0x40 + i) else none
    else if s = "HR_WORD" then if i < 0x80 then some (0x80 + i) else none
    else none
  | none =>
    if s = "STATE" then some 0x00
    else if s = "ERR" then some 0x01
    else if s = "VARIANT" then some 0x02
    else if s = "AC_LEN" then some 0x03
    else if s = "AC_PATTERN" then some 0x04
    else if s = "THRESHOLD" then some 0x05
    else if s = "BPS" then some 0x06
    else if s = "HDR_UNITS" then some 0x07
    else if s = "PAYLOAD_BPS" then some 0x08
    else if s = "OCC_LEN" then some 0x09
    else if s = "DATA_REG" then some 0x0A
    else if s = "HDR_LEN" then some 0x0B
    else if s = "NSKIP" then some 0x0C
    else if s = "PAYLOAD_REMAIN" then some 0x0D
    else if s = "TX_COUNTER" then some 0x0E
    else if s = "HEADER_NBITS" then some 0x0F
    else if s = "HEADER_NBYTES" then some 0x10
    else if s = "EFF_AC_LEN" then some 0x11
    else none

/-- The operand of `READ_REG`: a number or a name. -/
def Operand.register : Operand → Option Nat
  | .hex v => if v < 256 then some v else none
  | .dec neg v scale => if !neg && scale = 0 && v < 256 then some v else none
  | .name s i => regNumber (String.ofList s) i
  | .text _ => none

/-! ## Commands -/

/-- A command from an opcode, an `ARG` value and a `DATA` value. -/
def command (op arg data : Nat) : Command :=
  .ofFields (BitVec.ofNat 8 op) (BitVec.ofNat 8 arg) (BitVec.ofNat 64 data)

/-- The bits of a string of '0' and '1' characters, in string order; none for a string with any other character. R90 says so
of access-code strings; for `PUSH_BITS` and `PARSE`, where R89 writes `b0b1...bn-1` and is silent on other characters, it
is the model's choice (log entry 14). -/
def stringBits : List Char → Option (List Bool)
  | [] => some []
  | c :: cs =>
    if c = '0' then (stringBits cs).map (false :: ·)
    else if c = '1' then (stringBits cs).map (true :: ·)
    else none

/-- `pat(s)`: the first character is the most significant bit of the pattern (R90). -/
def pattern (bits : List Bool) : Nat := bits.foldl (fun v b => 2 * v + b.toNat) 0

/-- `SET_ACCESS_CODE "s"` (R89, R90): any other character, and any length above 64, is refused. -/
def setAccessCode (s : List Char) : Option (List Command) :=
  match stringBits s with
  | some bits => if bits.length ≤ 64 then some [command 0x11 bits.length (pattern bits)] else none
  | none => none

/-- `PUSH_BIT` for each bit in order (R89). -/
def pushBits (bits : List Bool) : List Command := bits.map fun b => command 0x20 b.toNat 0

/-- `PUSH_BYTES x0, x1, ...`: each byte most significant bit first (R89, R63). -/
def pushBytes (xs : List Byte) : List Command := pushBits (xs.flatMap msbFirst)

/-- `PUSH_UNITS b; u0, u1, ...`: the `b` low bits of each unit, bit 0 first (R89, R64). -/
def pushUnits (b : Nat) (us : List Byte) : List Command := pushBits (us.flatMap (unitBits b))

/-- The values of a list of operands, each below a bound. -/
def ints (bound : Nat) : List Operand → Option (List Nat)
  | [] => some []
  | o :: os =>
    match o.int bound, ints bound os with
    | some v, some vs => some (v :: vs)
    | _, _ => none

/-- The values of a list of soft operands. -/
def softs : List Operand → Option (List Nat)
  | [] => some []
  | o :: os =>
    match o.soft, softs os with
    | some v, some vs => some (v :: vs)
    | _, _ => none

/-- A command with no operand. -/
def asmNone (op : Nat) : List Operand → Option (List Command)
  | [] => some [command op 0 0]
  | _ => none

/-- A command whose one operand goes into `ARG`. -/
def asmArg (op : Nat) : List Operand → Option (List Command)
  | [o] => (o.int 256).map fun v => [command op v 0]
  | _ => none

/-- A command whose one operand goes into `DATA`. -/
def asmData (op : Nat) : List Operand → Option (List Command)
  | [o] => (o.int (2 ^ 64)).map fun v => [command op 0 v]
  | _ => none

/-- A command whose first operand goes into `ARG` and whose second goes into `DATA`. -/
def asmArgData (op : Nat) : List Operand → Option (List Command)
  | [a, d] =>
    match a.int 256, d.int (2 ^ 64) with
    | some v, some w => some [command op v w]
    | _, _ => none
  | _ => none

/-- A line: a mnemonic of R85 or of R89 and its operands. `.word` is the raw command word of program P3
(spec/95_test_vectors.md), with `DATA` 0 as there. A pseudo-command over a list takes at least one element, and a unit
has 1 to 8 bits (R25; log entry 14). A `PUSH_BITS` or `PARSE` line whose string has a character other than '0' and '1' is
refused whole, and no `PUSH_BIT` with another operand is made of it (the model's choice, log entry 14). -/
def assemble (mnemonic : String) (ops : List Operand) : Option (List Command) :=
  if mnemonic = "NOP" then asmNone 0x00 ops
  else if mnemonic = "RESET" then asmNone 0x01 ops
  else if mnemonic = "SYNC_RESET" then asmNone 0x02 ops
  else if mnemonic = "CFG_VARIANT" then asmArg 0x10 ops
  else if mnemonic = "CFG_ACCESS_CODE" then asmArgData 0x11 ops
  else if mnemonic = "CFG_THRESHOLD" then asmArg 0x12 ops
  else if mnemonic = "CFG_BPS" then asmArg 0x13 ops
  else if mnemonic = "CFG_HDR_UNITS" then asmData 0x14 ops
  else if mnemonic = "CFG_PAYLOAD_BPS" then asmArg 0x15 ops
  else if mnemonic = "CFG_OCC_LEN" then asmArg 0x16 ops
  else if mnemonic = "CFG_OCC_ENTRY" then asmArgData 0x17 ops
  else if mnemonic = "PUSH_BIT" then asmArg 0x20 ops
  else if mnemonic = "PUSH_SOFT" then
    match ops with
    | [o] => o.soft.map fun v => [command 0x21 0 v]
    | _ => none
  else if mnemonic = "FORMAT" then asmData 0x30 ops
  else if mnemonic = "READ_REG" then
    match ops with
    | [o] => o.register.map fun v => [command 0x40 v 0]
    | _ => none
  else if mnemonic = "SET_ACCESS_CODE" then
    match ops with
    | [.text s] => setAccessCode s
    | _ => none
  else if mnemonic = "PUSH_BITS" ∨ mnemonic = "PARSE" then
    match ops with
    | [.text s] => (stringBits s).map pushBits
    | _ => none
  else if mnemonic = "PUSH_BYTES" then
    if ops = [] then none else (ints 256 ops).map fun vs => pushBytes (vs.map fun v => BitVec.ofNat 8 v)
  else if mnemonic = "PUSH_UNITS" then
    match ints 256 ops with
    | some (b :: u :: us) =>
      if 1 ≤ b ∧ b ≤ 8 then some (pushUnits b ((u :: us).map fun v => BitVec.ofNat 8 v)) else none
    | _ => none
  else if mnemonic = "PARSE_SOFT" then
    if ops = [] then none else (softs ops).map fun vs => vs.map fun v => command 0x21 0 v
  else if mnemonic = ".word" then
    match ops with
    | [o] => (o.int (2 ^ 16)).map fun v => [⟨BitVec.ofNat 16 v, 0⟩]
    | _ => none
  else none

/-! ## Text -/

/-- White space within a line (log entry 14). -/
def isBlank (c : Char) : Bool := c = ' ' || c = '\t'

/-- A text without the white space around it; white space inside it stays. -/
def trim (cs : List Char) : List Char := ((cs.dropWhile isBlank).reverse.dropWhile isBlank).reverse

/-- The parts of a text between the occurrences of a separator outside quotes; the flag says whether the text begins
inside quotes. A quoted string reaches R90 with every character it has. -/
def parts (sep : Char) : Bool → List Char → List (List Char)
  | _, [] => [[]]
  | quoted, c :: cs =>
    let rest := parts sep (if c = '"' then !quoted else quoted) cs
    if c = sep ∧ quoted = false then [] :: rest
    else
      match rest with
      | [] => [[c]]
      | p :: ps => (c :: p) :: ps

/-- The operands of a list, `,` between them: none in a blank text, and otherwise one for each slot, an empty slot too,
which `parseOperand` then refuses (the model's choice, log entry 14). -/
def listTexts (cs : List Char) : List (List Char) := if trim cs = [] then [] else (parts ',' false cs).map trim

/-- Every operand of a list of texts. -/
def parseOperands : List (List Char) → Option (List Operand)
  | [] => some []
  | t :: ts =>
    match parseOperand t, parseOperands ts with
    | some o, some os => some (o :: os)
    | _, _ => none

/-- The operand texts of a line's remainder: `;` starts a comment (R88), but the first `;` of a `PUSH_UNITS` line ends its
one-operand width, and a `PUSH_UNITS` line without it is refused (R89; log entry 14). -/
def operandTexts (mnemonic : String) (rest : List Char) : Option (List (List Char)) :=
  let fields := parts ';' false rest
  if mnemonic = "PUSH_UNITS" then
    match fields with
    | width :: units :: _ => some (trim width :: listTexts units)
    | _ => none
  else some (listTexts (fields.headD []))

/-- One line of assembly (R88); a line with nothing but a comment stands for no command. -/
def assembleLine (line : String) : Option (List Command) :=
  let cs := line.toList.dropWhile isBlank
  let word := cs.takeWhile fun c => !isBlank c && c ≠ ';'
  if word = [] then some []
  else
    let mnemonic := String.ofList word
    match operandTexts mnemonic (cs.dropWhile fun c => !isBlank c && c ≠ ';') with
    | some texts =>
      match parseOperands texts with
      | some ops => assemble mnemonic ops
      | none => none
    | none => none

/-- A program, one line after the other. -/
def assembleProgram : List String → Option (List Command)
  | [] => some []
  | l :: ls =>
    match assembleLine l, assembleProgram ls with
    | some a, some b => some (a ++ b)
    | _, _ => none

end Sys2Proof.Asm
end

