-- ==== Sys2Proof/Machine/Records.lean ====
section
/-! DEFINITION. The metadata dictionary of a record: which keys are present for the record's layout, and their values,
in the order of R45. -/

namespace Sys2Proof.Machine

/-- Whether `"packet length"` is a key of the layout's dictionary (R45). -/
def Variant.hasLengthKey : Variant → Bool
  | .default | .counter | .crc => false
  | .variableBits | .ofdm => true

/-- Whether `"counter"` is a key of the layout's dictionary (R45). -/
def Variant.hasCounterKey : Variant → Bool
  | .default => false
  | .counter | .crc | .variableBits | .ofdm => true

/-- The keys of the dictionary with their values, in order (R45). A field that is not present for the record's variant
is no key of it. -/
def Record.dictionary (r : Record) : List (String × Nat) :=
  [("payload bits", r.payloadBits.toNat), ("skip samps", r.skip.toNat)]
    ++ (if Variant.hasLengthKey r.variant then [("packet length", r.len.toNat)] else [])
    ++ (if r.variant = .counter then [("bps", r.bps.toNat)] else [])
    ++ (if Variant.hasCounterKey r.variant then [("counter", r.counter.toNat)] else [])
    ++ (if r.variant = .ofdm then [("ofdm symbols", r.ofdmSymbols.toNat)] else [])

end Sys2Proof.Machine
end

