-- ==== Sys2Proof/Safety.lean ====
section
/-! DEFINITION. What a legal implementation, a good state and a safe run are, in the terms the statements use. -/

namespace Sys2Proof

/-- The ranges of the implementation parameters (R8, R151). -/
structure Params.Legal (p : Params) : Prop where
  unitsMultiple : p.hdrMaxUnits % 8 = 0
  unitsLow : 32 ≤ p.hdrMaxUnits
  unitsHigh : p.hdrMaxUnits ≤ 1024
  occLow : 1 ≤ p.occMax
  occHigh : p.occMax ≤ 64
  seqLength : p.scrambleSeq.length = 8 * p.hdrMaxUnits

end Sys2Proof

namespace Sys2Proof.Machine

/-- What holds between commands in every reachable state: the configuration is valid (R30), the registers have the
shape R29 and R38 give them, the invariants of R182 hold, the header buffer holds nothing (R61), and the error
registers hold what R43, R84 and R221 allow. -/
structure State.Inv (s : State) : Prop where
  params : s.params.Legal
  config : s.cfg.valid s.params = true
  cells : s.hrBits.length = s.params.hrCap
  collecting : s.fsm = .haveSync → s.hrLen.toNat < s.cfg.htgt
  notCollecting : s.fsm ≠ .haveSync → s.hrLen = 0
  counting : s.fsm = .haveHeader → s.payloadRemain ≠ 0
  notCounting : s.fsm ≠ .haveHeader → s.payloadRemain = 0
  noHistory : s.cfg.effL = 0 → s.dataReg = 0
  buffer : s.hb = []
  errCode : s.lastErr.toNat ≤ 5
  faulted : s.fault = true → s.lastErr ≠ 0

/-- The registers the decode path reads and writes (R78, R179): what a run of pushes depends on, and the records it
emits. -/
structure DecodeView where
  params : Params
  cfg : CfgRegs
  fsm : FramingState
  dataReg : Word
  hrBits : List Bool
  hrLen : BitVec 14
  nskip : Word
  payloadRemain : BitVec 32
  recOut : List Record
deriving DecidableEq, Repr

/-- The decode path's share of a state. -/
def State.decodeView (s : State) : DecodeView where
  params := s.params
  cfg := s.cfg
  fsm := s.fsm
  dataReg := s.dataReg
  hrBits := s.hrBits
  hrLen := s.hrLen
  nskip := s.nskip
  payloadRemain := s.payloadRemain
  recOut := s.recOut

/-- A list of instructions run one after the other, stopping at the first fault or refusal. -/
def execAll : List Instr → State → Out
  | [], s => .next s
  | i :: is, s =>
    match exec i s with
    | .next t => execAll is t
    | .fault f => .fault f
    | .refused r => .refused r

/-- A burst of hard bits: one `PUSH_BIT` per bit, in order (R179). -/
def pushAll (bits : List Bool) (s : State) : Out := execAll (bits.map .pushBit) s

/-- The stream bits of a header's bytes: MSB first for Default, Counter and CRC (R63), the `BPS` low bits of each unit,
bit 0 first, for VariableBits and OFDM (R64). -/
def wireBits (c : CfgRegs) (h : List Byte) : List Bool :=
  if c.variant.usesUnits then h.flatMap (unitBits c.bps.toNat) else h.flatMap msbFirst

/-- The correlator register after a run of bits from a value (R120). -/
def shiftAll (data : Word) (bits : List Bool) : Word := bits.foldl shiftIn data

/-- The length a header carries for payload length `L`: `L` for Default and Counter, `L mod 4096` otherwise (R183). -/
def sentLen (c : CfgRegs) (len : Word) : Nat := if c.variant.hasCode then len.toNat else len.toNat % 4096

/-- A step that goes on: no fault and no refusal. -/
def Continues (o : Out) : Prop := ∃ t, o = .next t

end Sys2Proof.Machine
end

