-- ==== Sys2Proof/Certificates/Slice0/Obligations.lean ====
section
/-! DEFINITION. The statements for the provers, one `def Obligations.<Name> : Prop` each, and the few states and
predicates they are written in. A statement that gives the whole next state as a record update of the old one says the
frame with it: every field the update does not name is unchanged. -/

open Sys2Proof Sys2Proof.Machine

namespace Sys2Proof.Machine

/-! ## The words of the statements -/

/-- What an accepted configuration command leaves: the new registers, a framing reset, and `(OK, 0)` (R190, R241). -/
def State.cfgAccepted (s : State) (new : CfgRegs) : State :=
  { s with cfg := new, fsm := .syncSearch, dataReg := 0, hrLen := 0, nskip := 0, payloadRemain := 0,
           respOut := s.respOut ++ [⟨.ok, 0⟩] }

/-- What a refused configuration command leaves: `FAULT` set, `LAST_ERR = 0x02`, and `(CFG_ERR, 0)` (R190, R222). -/
def State.cfgRefused (s : State) : State :=
  { s with fault := true, lastErr := 0x02#8, respOut := s.respOut ++ [⟨.cfgErr, 0⟩] }

/-- Some in-use entry of an occupancy table is not 0 (R29). -/
def InUse (occ : List Half) (n : Nat) : Prop := ∃ i, i < n ∧ ∃ v, occ[i]? = some v ∧ v ≠ 0#16

/-- The header register holds exactly these bits, first bit received first (R38). -/
def State.HrHolds (s : State) (bits : List Bool) : Prop :=
  s.hrLen.toNat = bits.length ∧ s.hrBits.take bits.length = bits

/-- The validation of a layout, as an instruction of its own: `hdr_ok_VARIANT` (R130, R172). -/
def hdrOkOf : Variant → Instr
  | .default => .defaultHdrOk
  | .counter => .counterHdrOk
  | .crc => .crcHdrOk
  | .variableBits => .variableBitsHdrOk
  | .ofdm => .ofdmHdrOk

/-- The extraction of a layout, as an instruction of its own: `hdr_payload_VARIANT` (R130, R172). -/
def hdrPayloadOf : Variant → Instr
  | .default => .defaultHdrPayload
  | .counter => .counterHdrPayload
  | .crc => .crcHdrPayload
  | .variableBits => .variableBitsHdrPayload
  | .ofdm => .ofdmHdrPayload

/-- The two bytes of a 16-bit field, most significant first (R62). -/
def bigEndian16 (v : Half) : List Byte := [v.extractLsb' 8 8, v.extractLsb' 0 8]

/-- A record with these fields and no other (R45). -/
def plainRecord (v : Variant) (len bps counter : Half) (symbols : BitVec 32) : Record :=
  { variant := v, payloadBits := BitVec.ofNat 32 (8 * len.toNat), skip := 0, len := len, bps := bps,
    counter := counter, ofdmSymbols := symbols }

/-- Bit `j` of a VariableBits header with `b` bits per unit (R149): the length, the counter and the CRC, each LSB first
from a unit boundary on, and 0 elsewhere. -/
def unitHeaderBit (b : Nat) (l c : BitVec 12) (k : Byte) (j : Nat) : Bool :=
  let start2 := ceilDiv 12 b * b
  let start3 := 2 * ceilDiv 12 b * b
  if j < 12 then l.getLsbD j
  else if start2 ≤ j ∧ j < start2 + 12 then c.getLsbD (j - start2)
  else if start3 ≤ j ∧ j < start3 + 8 then k.getLsbD (j - start3)
  else false

/-- The payload bits the first `m` symbols of the occupancy walk carry (R155). -/
def carried (occ : List Half) (occLen bitsPerCarrier : Nat) : Nat → Nat
  | 0 => 0
  | m + 1 => carried occ occLen bitsPerCarrier m + ((occ[m % occLen]?).getD 0).toNat * bitsPerCarrier

/-- One bit into the CRC register, most significant bit of the message first: the feedback is the XOR of the outgoing bit
and the message bit (R131). -/
def crcSerial (r : Byte) (b : Bool) : Byte := (r <<< 1) ^^^ if (r.getLsbD 7 != b) then 0x07#8 else 0x00#8

/-- The registers whose number is fixed, each with its value as a number (R47, R31 to R34). -/
def State.numbered (s : State) : List (Byte × Nat) :=
  [(0x00, s.fsm.code.toNat), (0x01, s.fault.toNat + 256 * s.lastErr.toNat), (0x02, s.cfg.variant.code.toNat),
   (0x03, s.cfg.acLen.toNat), (0x04, s.cfg.acPattern.toNat), (0x05, s.cfg.threshold.toNat), (0x06, s.cfg.bps.toNat),
   (0x07, s.cfg.hdrUnits.toNat), (0x08, s.cfg.payloadBps.toNat), (0x09, s.cfg.occLen.toNat), (0x0A, s.dataReg.toNat),
   (0x0B, s.hrLen.toNat), (0x0C, s.nskip.toNat), (0x0D, s.payloadRemain.toNat), (0x0E, s.txCounter.toNat),
   (0x0F, s.cfg.effL + s.cfg.htgt),
   (0x10, if s.cfg.variant.usesUnits then s.cfg.hdrUnits.toNat else (s.cfg.effL + s.cfg.htgt) / 8),
   (0x11, if s.cfg.variant.hasCode then s.cfg.acLen.toNat else 0)]

/-- A stream of `pre` followed by a coded header has no match before the last bit of the access code: every earlier
window differs from the code in more than `THRESHOLD` bits (R183). -/
def NoEarlyMatch (s : State) (stream : List Bool) (n : Nat) : Prop :=
  ∀ k, 0 < k → k < n → matchSignal s.cfg (shiftAll s.dataReg (stream.take k)) = false

end Sys2Proof.Machine

/-! ## The command port and decoding -/

/-- R74, R229: the next command in arrival order is decoded and run; with none, every state element keeps its value. -/
def Obligations.StepRunsTheDecodedCommand : Prop :=
  (∀ (s : State) (c : Command) (rest : List Command) (i : Instr), s.cmdIn = c :: rest → decode c = .ok i →
      step s = exec i { s with cmdIn := rest })
    ∧ ∀ s : State, s.cmdIn = [] → step s = .next s

/-- R87: a refused word answers `ILLEGAL`, and everything but `LAST_ERR` is unchanged. -/
def Obligations.IllegalWordAnswersIllegal : Prop :=
  ∀ (s : State) (c : Command) (rest : List Command) (e : DecodeError), s.cmdIn = c :: rest → decode c = .error e →
    step s = .next { s with cmdIn := rest, lastErr := 0x01#8, respOut := s.respOut ++ [⟨.illegal, 0⟩] }

/-- R85, R80: every command has an encoding, and its encoding decodes to it, with every operand. -/
def Obligations.EncodedCommandDecodesToItself : Prop :=
  ∀ i : Instr, i.isCommand = true → ∃ c, encode i = some c ∧ decode c = .ok i

/-- R91, R82: only commands are decoded, they are well-formed, and the command word of a decoded command is the one its
encoding has (the ignored `DATA` may differ). -/
def Obligations.DecodedCommandEncodesToItsWord : Prop :=
  ∀ (c : Command) (i : Instr), decode c = .ok i →
    i.isCommand = true ∧ i.wellFormed = true ∧ ∃ c', encode i = some c' ∧ c'.cw = c.cw

/-- R86, checks 1 and 2: exactly the unassigned opcodes and the non-zero reserved `ARG` bits are refused. -/
def Obligations.DecodeRefusesExactlyUnassignedAndReserved : Prop :=
  ∀ c : Command, (∃ e, decode c = .error e) ↔
    (c.op.toNat ∉ [0x00, 0x01, 0x02, 0x10, 0x11, 0x12, 0x13, 0x14, 0x15, 0x16, 0x17, 0x20, 0x21, 0x30, 0x40])
      ∨ (c.op.toNat ∈ [0x00, 0x01, 0x02, 0x14, 0x21, 0x30] ∧ c.arg ≠ 0#8)
      ∨ (c.op.toNat = 0x20 ∧ 2 ≤ c.arg.toNat)

/-- A few words of R85 written out. -/
def Obligations.SampleWordsDecode : Prop :=
  decode ⟨0x0000, 0⟩ = .ok .nop ∧ decode ⟨0x0100, 7⟩ = .ok .reset ∧ decode ⟨0x1110, 0xAAAA⟩ = .ok (.cfgAccessCode 16 0xAAAA)
    ∧ decode ⟨0x2001, 0⟩ = .ok (.pushBit true) ∧ decode ⟨0x2100, 0xFFFFFFFF3F800000⟩ = .ok (.pushSoft 0x3F800000)
    ∧ decode ⟨0x3000, 0x12C0⟩ = .ok (.format 4800) ∧ decode ⟨0x4088, 0⟩ = .ok (.readReg 0x88)
    ∧ decode ⟨0x2002, 0⟩ = .error (.reservedArg 0x20 0x02) ∧ decode ⟨0x9900, 0⟩ = .error (.unassignedOpcode 0x99)

/-- R83: every command gets exactly one response, appended to the responses before it, with `RDATA = 0` when the status
is not `OK`; and the command is taken from the port. -/
def Obligations.EveryCommandGetsExactlyOneResponse : Prop :=
  ∀ (s t : State) (c : Command) (rest : List Command), s.cmdIn = c :: rest → step s = .next t →
    t.cmdIn = rest ∧ ∃ r : Response, t.respOut = s.respOut ++ [r] ∧ (r.status ≠ .ok → r.rdata = 0)

/-! ## Invariants -/

/-- The invariant (R30, R61, R182) holds at power-on of every legal implementation. -/
def Obligations.PowerOnMeetsTheInvariant : Prop := ∀ p : Params, p.Legal → (State.powerOn p).Inv

/-- The invariant is kept by every step, from every state that meets it. -/
def Obligations.EveryStepKeepsTheInvariant : Prop := ∀ s t : State, s.Inv → step s = .next t → t.Inv

/-- R110, R155, R174: from a state that meets the invariant no command meets a situation the spec rules out: every step
goes on. -/
def Obligations.EveryStepGoesOnWithinTheInvariant : Prop := ∀ s : State, s.Inv → ∃ t, step s = .next t

/-- R30, R199: a valid configuration stays valid after every command. -/
def Obligations.ConfigurationStaysValid : Prop :=
  ∀ (i : Instr) (s t : State), i.isCommand = true → s.params.Legal → s.cfg.valid s.params = true →
    exec i s = .next t → t.cfg.valid t.params = true

/-- R35: the eight values of `min_units`, and R34: `H >= 32` in every valid configuration. -/
def Obligations.MinUnitsAndShortestHeader : Prop :=
  (List.range 8).map (fun n => minUnits (n + 1)) = [32, 16, 11, 8, 8, 6, 6, 5]
    ∧ ∀ (p : Params) (c : CfgRegs), c.valid p = true → 32 ≤ c.htgt ∧ (p.Legal → c.htgt ≤ p.hrCap)

/-! ## Control commands -/

/-- R206, R204, R241: `NOP` only answers; `SYNC_RESET` and the framing reset set the five framing registers. -/
def Obligations.NopAndSyncResetEffects : Prop :=
  (∀ s : State, exec .nop s = .next { s with respOut := s.respOut ++ [⟨.ok, 0⟩] })
    ∧ (∀ s : State, exec .framingReset s =
        .next { s with fsm := .syncSearch, dataReg := 0, hrLen := 0, nskip := 0, payloadRemain := 0 })
    ∧ ∀ s : State, s.fault = false → exec .syncReset s =
        .next { s with fsm := .syncSearch, dataReg := 0, hrLen := 0, nskip := 0, payloadRemain := 0,
                       respOut := s.respOut ++ [⟨.ok, 0⟩] }

/-- R203, R56: `RESET` runs from every state, gives every register its reset value and withdraws nothing emitted. What
it keeps besides (the pending commands, the parameters, the model's own fields) is the model's choice, log entry 13. -/
def Obligations.ResetRestoresResetValues : Prop :=
  ∀ s : State, ∃ t, exec .reset s = .next t
    ∧ t.cfg = { variant := .default, acLen := 0, acPattern := 0, threshold := 0, bps := 1, hdrUnits := 32,
                payloadBps := 1, occLen := 1, occ := 1 :: List.replicate (s.params.occMax - 1) 0 }
    ∧ t.fsm = .syncSearch ∧ t.dataReg = 0 ∧ t.hrLen = 0 ∧ t.nskip = 0 ∧ t.payloadRemain = 0 ∧ t.txCounter = 0
    ∧ t.fault = false ∧ t.lastErr = 0 ∧ t.hdrOut = s.hdrOut ∧ t.recOut = s.recOut
    ∧ t.respOut = s.respOut ++ [⟨.ok, 0⟩] ∧ t.params = s.params ∧ t.cmdIn = s.cmdIn

/-- R47, R29, R205: `READ_REG` of a numbered register, and of `0x40 + i` for `OCC[i]`, answers the value zero-extended and
changes nothing else. -/
def Obligations.ReadRegOfNumberedRegistersAndEntries : Prop :=
  (∀ (s : State) (r : Byte × Nat), r ∈ s.numbered →
      exec (.readReg r.1) s = .next { s with respOut := s.respOut ++ [⟨.ok, BitVec.ofNat 64 r.2⟩] })
    ∧ ∀ (s : State) (i : Nat) (v : Half), s.params.Legal → i < s.params.occMax → s.cfg.occ[i]? = some v →
      exec (.readReg (BitVec.ofNat 8 (0x40 + i))) s = .next { s with respOut := s.respOut ++ [⟨.ok, v.setWidth 64⟩] }

/-- R48, R55: `READ_REG` of `0x80 + w` answers with bit `63-k` equal to cell `64w+k` for every cell below `HR.len`; the
other bits are free draws, of which nothing is said. Nothing but the model's own draw counter changes. -/
def Obligations.ReadRegOfHeaderWords : Prop :=
  ∀ (s : State) (w : Nat), s.params.Legal → s.hrBits.length = s.params.hrCap → w < s.params.hrCap / 64 →
    ∃ (v : Word) (d : Nat),
      exec (.readReg (BitVec.ofNat 8 (0x80 + w))) s =
          .next { s with draws := d, respOut := s.respOut ++ [⟨.ok, v⟩] }
        ∧ (∀ k, k < 64 → 64 * w + k < s.hrLen.toNat → some (v.getLsbD (63 - k)) = s.hrBits[64 * w + k]?)
        ∧ (64 * w + 64 ≤ s.hrLen.toNat → d = s.draws)

/-- R47, R205: `READ_REG` of an unassigned number fails with `ILLEGAL`. -/
def Obligations.ReadRegOfUnassignedNumbers : Prop :=
  ∀ (s : State) (r : Byte), s.params.Legal →
    ((0x12 ≤ r.toNat ∧ r.toNat < 0x40) ∨ (0x40 + s.params.occMax ≤ r.toNat ∧ r.toNat < 0x80)
      ∨ 0x80 + s.params.hrCap / 64 ≤ r.toNat) →
    exec (.readReg r) s = .next { s with lastErr := 0x01#8, respOut := s.respOut ++ [⟨.illegal, 0⟩] }

/-! ## Configuration commands -/

/-- R191. -/
def Obligations.CfgVariantChecksAndEffect : Prop :=
  ∀ (v : Byte) (s : State), s.params.Legal → s.cfg.valid s.params = true → s.fault = false →
    (∀ w : Variant, w.code.toNat = v.toNat → (3 ≤ v.toNat → minUnits s.cfg.bps.toNat ≤ s.cfg.hdrUnits.toNat) →
        (v.toNat = 4 → InUse s.cfg.occ s.cfg.occLen.toNat) →
        exec (.cfgVariant v) s = .next (s.cfgAccepted { s.cfg with variant := w }))
      ∧ ((4 < v.toNat ∨ (3 ≤ v.toNat ∧ s.cfg.hdrUnits.toNat < minUnits s.cfg.bps.toNat)
            ∨ (v.toNat = 4 ∧ ¬ InUse s.cfg.occ s.cfg.occLen.toNat)) →
          exec (.cfgVariant v) s = .next s.cfgRefused)

/-- R192. -/
def Obligations.CfgAccessCodeChecksAndEffect : Prop :=
  ∀ (n : Byte) (p : Word) (s : State), s.params.Legal → s.cfg.valid s.params = true → s.fault = false →
    exec (.cfgAccessCode n p) s =
      if n.toNat ≤ 64 ∧ p.toNat < 2 ^ n.toNat ∧ s.cfg.threshold.toNat ≤ n.toNat then
        .next (s.cfgAccepted { s.cfg with acLen := BitVec.ofNat 7 n.toNat, acPattern := p })
      else .next s.cfgRefused

/-- R193: the value is refused, not clamped. -/
def Obligations.CfgThresholdChecksAndEffect : Prop :=
  ∀ (v : Byte) (s : State), s.params.Legal → s.cfg.valid s.params = true → s.fault = false →
    exec (.cfgThreshold v) s =
      if v.toNat ≤ s.cfg.acLen.toNat then .next (s.cfgAccepted { s.cfg with threshold := BitVec.ofNat 7 v.toNat })
      else .next s.cfgRefused

/-- R194. -/
def Obligations.CfgBpsChecksAndEffect : Prop :=
  ∀ (b : Byte) (s : State), s.params.Legal → s.cfg.valid s.params = true → s.fault = false →
    exec (.cfgBps b) s =
      if 1 ≤ b.toNat ∧ b.toNat ≤ 8 ∧ (s.cfg.variant.usesUnits = true → minUnits b.toNat ≤ s.cfg.hdrUnits.toNat) then
        .next (s.cfgAccepted { s.cfg with bps := BitVec.ofNat 4 b.toNat })
      else .next s.cfgRefused

/-- R195: `u` is compared as a 64-bit value. -/
def Obligations.CfgHdrUnitsChecksAndEffect : Prop :=
  ∀ (u : Word) (s : State), s.params.Legal → s.cfg.valid s.params = true → s.fault = false →
    exec (.cfgHdrUnits u) s =
      if 1 ≤ u.toNat ∧ u.toNat ≤ s.params.hdrMaxUnits
          ∧ (s.cfg.variant.usesUnits = true → minUnits s.cfg.bps.toNat ≤ u.toNat) then
        .next (s.cfgAccepted { s.cfg with hdrUnits := BitVec.ofNat 16 u.toNat })
      else .next s.cfgRefused

/-- R196. -/
def Obligations.CfgPayloadBpsChecksAndEffect : Prop :=
  ∀ (p : Byte) (s : State), s.params.Legal → s.cfg.valid s.params = true → s.fault = false →
    exec (.cfgPayloadBps p) s =
      if 1 ≤ p.toNat ∧ p.toNat ≤ 8 then
        .next (s.cfgAccepted { s.cfg with payloadBps := BitVec.ofNat 4 p.toNat })
      else .next s.cfgRefused

/-- R197. -/
def Obligations.CfgOccLenChecksAndEffect : Prop :=
  ∀ (n : Byte) (s : State), s.params.Legal → s.cfg.valid s.params = true → s.fault = false →
    ((1 ≤ n.toNat ∧ n.toNat ≤ s.params.occMax ∧ (s.cfg.variant = .ofdm → InUse s.cfg.occ n.toNat)) →
        exec (.cfgOccLen n) s = .next (s.cfgAccepted { s.cfg with occLen := BitVec.ofNat 7 n.toNat }))
      ∧ (¬ (1 ≤ n.toNat ∧ n.toNat ≤ s.params.occMax ∧ (s.cfg.variant = .ofdm → InUse s.cfg.occ n.toNat)) →
        exec (.cfgOccLen n) s = .next s.cfgRefused)

/-- R198. -/
def Obligations.CfgOccEntryChecksAndEffect : Prop :=
  ∀ (i : Byte) (c : Word) (s : State), s.params.Legal → s.cfg.valid s.params = true → s.fault = false →
    ((i.toNat < s.params.occMax ∧ c.toNat ≤ 65535
          ∧ (s.cfg.variant = .ofdm → InUse (s.cfg.occ.set i.toNat (BitVec.ofNat 16 c.toNat)) s.cfg.occLen.toNat)) →
        exec (.cfgOccEntry i c) s =
          .next (s.cfgAccepted { s.cfg with occ := s.cfg.occ.set i.toNat (BitVec.ofNat 16 c.toNat) }))
      ∧ (¬ (i.toNat < s.params.occMax ∧ c.toNat ≤ 65535
          ∧ (s.cfg.variant = .ofdm → InUse (s.cfg.occ.set i.toNat (BitVec.ofNat 16 c.toNat)) s.cfg.occLen.toNat)) →
        exec (.cfgOccEntry i c) s = .next s.cfgRefused)

/-! ## Errors -/

/-- R221: while `FAULT = 1` every command but `NOP`, `RESET` and `READ_REG` fails with `BLOCKED` and has no effect, and
those three are not blocked; `CFG_ERR` sets `FAULT`, and only `RESET` clears it. -/
def Obligations.FaultBlocksEveryOtherCommand : Prop :=
  (∀ (i : Instr) (s : State), i.isCommand = true → i ≠ .nop → i ≠ .reset → (∀ r, i ≠ .readReg r) → s.fault = true →
      exec i s = .next { s with lastErr := 0x03#8, respOut := s.respOut ++ [⟨.blocked, 0⟩] })
    ∧ (∀ (i : Instr) (s t : State) (r : Response), (i = .nop ∨ i = .reset ∨ ∃ n, i = .readReg n) → exec i s = .next t →
      t.respOut = s.respOut ++ [r] → r.status ≠ .blocked)
    ∧ (∀ (i : Instr) (s t : State), i.isCommand = true → i ≠ .reset → exec i s = .next t →
      ∃ r : Response, t.respOut = s.respOut ++ [r] ∧ t.fault = (s.fault || decide (r.status = .cfgErr)))
    ∧ ∀ s t : State, exec .reset s = .next t → t.fault = false

/-- R222: `fail` writes `LAST_ERR`, sets `FAULT` on `CFG_ERR`, responds with the status and 0, and changes nothing else.
That `fail OK` is refused is the model's choice, log entry 12. -/
def Obligations.FailRecordsAndResponds : Prop :=
  (∀ (n : Nat) (st : Status) (s : State),
      (n, st) ∈ [(1, Status.illegal), (2, Status.cfgErr), (3, Status.blocked), (4, Status.fmtLen), (5, Status.fmtUnsup)] →
      exec (.fail st) s = .next { s with lastErr := BitVec.ofNat 8 n, fault := s.fault || decide (n = 2),
                                         respOut := s.respOut ++ [⟨st, 0⟩] })
    ∧ ∀ s : State, exec (.fail .ok) s = .refused .illFormed

/-- R43, R222: after a command other than `RESET`, `LAST_ERR` is the code of its status if the status is not `OK`, and is
unchanged otherwise; it is 0 after `RESET` and at power-on; `fail` writes it, sets `FAULT` on `CFG_ERR`, responds, and
changes nothing else. -/
def Obligations.LastErrHoldsTheLatestFailure : Prop :=
  (∀ (i : Instr) (s t : State), i.isCommand = true → i ≠ .reset → exec i s = .next t →
      ∃ r : Response, t.respOut = s.respOut ++ [r]
        ∧ t.lastErr = (if r.status = .ok then s.lastErr else r.status.code))
    ∧ (∀ s t : State, exec .reset s = .next t → t.lastErr = 0)
    ∧ (∀ p : Params, (State.powerOn p).lastErr = 0)
    ∧ ∀ (st : Status) (s : State), st ≠ .ok →
      exec (.fail st) s = .next { s with lastErr := st.code, fault := s.fault || decide (st = .cfgErr),
                                         respOut := s.respOut ++ [⟨st, 0⟩] }

/-- R220, R225: a command whose status is not `OK` changes nothing but `LAST_ERR`, `FAULT` and the responses. -/
def Obligations.FailedCommandHasNoOtherEffect : Prop :=
  ∀ (i : Instr) (s t : State) (r : Response), i.isCommand = true → exec i s = .next t →
    t.respOut = s.respOut ++ [r] → r.status ≠ .ok →
    t = { s with lastErr := t.lastErr, fault := t.fault, respOut := t.respOut }

/-! ## Whole-machine rules -/

/-- R41: only `FORMAT` changes `TX_COUNTER`, and `RESET` returns it to 0. R20, R47: only the configuration commands and
`RESET` change the configuration. R8: nothing changes the parameters (the model's own field, log entry 1). -/
def Obligations.OnlyTheNamedCommandsChangeCounterAndConfiguration : Prop :=
  ∀ (i : Instr) (s t : State), i.isCommand = true → exec i s = .next t →
    ((∀ L, i ≠ .format L) → i ≠ .reset → t.txCounter = s.txCounter)
      ∧ ((∀ c, encode i = some c → c.op.toNat < 0x10 ∨ 0x17 < c.op.toNat) → i ≠ .reset → t.cfg = s.cfg)
      ∧ t.params = s.params

/-- R44, R46, R203: the output ports are append-only: `FORMAT` alone appends to `HDR_OUT`, the push commands alone append
to `REC_OUT`, at most one record a bit (R177), and no command withdraws anything. -/
def Obligations.OutputPortsAreAppendOnly : Prop :=
  ∀ (i : Instr) (s t : State), i.isCommand = true → exec i s = .next t →
    (∃ h, t.hdrOut = s.hdrOut ++ h ∧ ((∀ L, i ≠ .format L) → h = []))
      ∧ ∃ rs, t.recOut = s.recOut ++ rs ∧ rs.length ≤ 1
          ∧ ((∀ b, i ≠ .pushBit b) → (∀ x, i ≠ .pushSoft x) → rs = [])

/-- R37, R53: a bit consumed in `HaveSync` or `HaveHeader` is never shifted into `DATA_REG`; a bit consumed in
`SyncSearch` with a non-empty code is. -/
def Obligations.OnlySearchBitsReachTheCorrelator : Prop :=
  ∀ (b : Bool) (s t : State), s.fault = false → exec (.pushBit b) s = .next t →
    t.dataReg = if s.fsm = .syncSearch ∧ s.cfg.effL ≠ 0 then (s.dataReg <<< 1) ||| (if b then 1 else 0) else s.dataReg

/-- R78: `FORMAT` leaves the decode path untouched, and so do `NOP` and `READ_REG` (R71). -/
def Obligations.FormatAndReadsLeaveTheDecodePath : Prop :=
  ∀ (i : Instr) (s t : State), (i = .nop ∨ (∃ L, i = .format L) ∨ ∃ r, i = .readReg r) → exec i s = .next t →
    t.decodeView = s.decodeView

/-- R78, R179: what a push does to the decode path, and what it answers, depends on the decode path alone; what `FORMAT`
emits and answers depends on the configuration, the parameters and `TX_COUNTER` alone. -/
def Obligations.EncodeAndDecodeDoNotInterfere : Prop :=
  (∀ (b : Bool) (s s' t t' : State), s.Inv → s'.Inv → s.fault = false → s'.fault = false →
      s.decodeView = s'.decodeView → exec (.pushBit b) s = .next t → exec (.pushBit b) s' = .next t' →
      t.decodeView = t'.decodeView ∧ t.respOut.drop s.respOut.length = t'.respOut.drop s'.respOut.length)
    ∧ ∀ (L : Word) (s s' t t' : State), s.fault = false → s'.fault = false → s.params = s'.params → s.cfg = s'.cfg →
      s.txCounter = s'.txCounter → exec (.format L) s = .next t → exec (.format L) s' = .next t' →
      t.hdrOut.drop s.hdrOut.length = t'.hdrOut.drop s'.hdrOut.length ∧ t.txCounter = t'.txCounter
        ∧ t.respOut.drop s.respOut.length = t'.respOut.drop s'.respOut.length

/-! ## The decode stream -/

/-- R176, R177, R178: from a state within the invariant a push completes with status `OK`; its `RDATA` is 1 exactly when
one record was appended; `PUSH_SOFT x` has the effect of `PUSH_BIT` of the sliced bit, which is 0 exactly for the
patterns of negative values: above `-0.0` and up to `-inf`. -/
def Obligations.PushCompletesAndReportsARecord : Prop :=
  (∀ (b : Bool) (s : State), s.Inv → s.fault = false → ∃ (t : State) (rs : List Record),
      exec (.pushBit b) s = .next t ∧ t.recOut = s.recOut ++ rs ∧ rs.length ≤ 1
        ∧ t.respOut = s.respOut ++ [⟨.ok, BitVec.ofNat 64 rs.length⟩])
    ∧ ∀ (x : BitVec 32) (s : State), s.Inv → s.fault = false → ∃ t : State,
        exec (.pushSoft x) s = .next t
          ∧ exec (.pushBit (decide (¬ (0x80000000 < x.toNat ∧ x.toNat ≤ 0xFF800000)))) s = .next t

/-- R120, R121, R122: the correlator shifts the bit in at bit 0 and compares the `effL` low bits with the access code;
`Slice` gives 0 exactly for the binary32 patterns of values below zero, above `-0.0` and up to `-inf`. -/
def Obligations.CorrelatorShiftsAndComparesAndSlices : Prop :=
  (∀ (b : Bool) (s : State),
    exec (.corrStep b) s =
      .next { s with
        dataReg := (s.dataReg <<< 1) ||| (if b then 1 else 0)
        ret := .bit (decide (((List.range s.cfg.effL).countP fun i =>
          ((s.dataReg <<< 1) ||| (if b then 1 else 0)).getLsbD i != s.cfg.acPattern.getLsbD i)
            ≤ s.cfg.threshold.toNat)) })
    ∧ ∀ (x : BitVec 32) (s : State),
        exec (.slice x) s = .next { s with ret := .bit (decide (¬ (0x80000000 < x.toNat ∧ x.toNat ≤ 0xFF800000))) }

/-- R170, R171: a bit pushed in `SyncSearch` with a non-empty code. -/
def Obligations.PushedBitWhileSearching : Prop :=
  ∀ (b : Bool) (s : State), s.fault = false → s.fsm = .syncSearch → s.cfg.effL ≠ 0 →
    let data : Word := (s.dataReg <<< 1) ||| (if b then 1 else 0)
    let found : Bool := decide (((List.range s.cfg.effL).countP fun i =>
      data.getLsbD i != s.cfg.acPattern.getLsbD i) ≤ s.cfg.threshold.toNat)
    exec (.pushBit b) s =
      .next { s with
        dataReg := data
        nskip := s.nskip + 1
        fsm := if found then .haveSync else .syncSearch
        hrLen := if found then 0 else s.hrLen
        respOut := s.respOut ++ [⟨.ok, 0⟩] }

/-- R110, R170, R125: a header bit that does not complete the header, in `HaveSync` or, with an empty code, as the first
bit of a search. -/
def Obligations.PushedBitWhileCollecting : Prop :=
  (∀ (b : Bool) (s : State), s.fault = false → s.fsm = .haveSync → s.hrLen.toNat + 1 < s.cfg.htgt →
      s.hrLen.toNat < s.hrBits.length →
      exec (.pushBit b) s =
        .next { s with hrBits := s.hrBits.set s.hrLen.toNat b, hrLen := s.hrLen + 1, nskip := s.nskip + 1,
                       respOut := s.respOut ++ [⟨.ok, 0⟩] })
    ∧ ∀ (b : Bool) (s : State), s.fault = false → s.fsm = .syncSearch → s.cfg.effL = 0 → 1 < s.cfg.htgt →
      0 < s.hrBits.length →
      exec (.pushBit b) s =
        .next { s with fsm := .haveSync, hrBits := s.hrBits.set 0 b, hrLen := 1, nskip := s.nskip + 1,
                       respOut := s.respOut ++ [⟨.ok, 0⟩] }

/-- R172, R173, R177: the bit that completes a header. The header, its bit stored and counted, is judged and read by the
validation and the extraction of the layout `VARIANT` selects (R16, R130), each as it answers when run alone; a valid one
emits its record with `skip = NSKIP` and starts the payload count of `(8*len) div BPS` bits; an invalid one emits
nothing, and keeps `NSKIP` and `DATA_REG` (R175). -/
def Obligations.PushedBitThatCompletesAHeader : Prop :=
  ∀ (b : Bool) (s : State), s.Inv → s.fault = false → s.fsm = .haveSync → s.hrLen.toNat + 1 = s.cfg.htgt →
    let u : State := { s with hrBits := s.hrBits.set s.hrLen.toNat b, hrLen := s.hrLen + 1, nskip := s.nskip + 1 }
    (exec (hdrOkOf s.cfg.variant) u = .next { u with ret := .bit false } ∧
        exec (.pushBit b) s = .next { u with fsm := .syncSearch, hrLen := 0, respOut := s.respOut ++ [⟨.ok, 0⟩] })
      ∨ ∃ (len : Half) (r : Record), exec (hdrOkOf s.cfg.variant) u = .next { u with ret := .bit true } ∧
        exec (hdrPayloadOf s.cfg.variant) u = .next { u with ret := .payload len r } ∧
        exec (.pushBit b) s =
          .next { u with
            recOut := s.recOut ++ [{ r with skip := s.nskip + 1 }]
            nskip := 0
            hrLen := 0
            fsm := if 8 * len.toNat / s.cfg.bps.toNat = 0 then .syncSearch else .haveHeader
            payloadRemain := BitVec.ofNat 32 (8 * len.toNat / s.cfg.bps.toNat)
            respOut := s.respOut ++ [⟨.ok, 1⟩] }

/-- R174: a bit pushed in `HaveHeader`. That `PAYLOAD_REMAIN = 0`, which the rule derives to be unreachable there, stops
the machine is the model's choice (log entry 10). -/
def Obligations.PushedBitWhileCountingPayload : Prop :=
  ∀ (b : Bool) (s : State), s.fault = false → s.fsm = .haveHeader →
    (s.payloadRemain ≠ 0 →
      exec (.pushBit b) s =
        .next { s with
          payloadRemain := s.payloadRemain - 1
          fsm := if s.payloadRemain = 1 then .syncSearch else .haveHeader
          respOut := s.respOut ++ [⟨.ok, 0⟩] })
      ∧ (s.payloadRemain = 0 → exec (.pushBit b) s = .fault .payloadUnderflow)

/-- R170, R176: `ConsumeBit` run alone completes from every state within the invariant, and `PUSH_BIT` is `ConsumeBit`
with a response of its `emitted` flag. -/
def Obligations.PushBitIsConsumeBitWithAResponse : Prop :=
  ∀ (b : Bool) (s : State), s.Inv → ∃ (u : State) (e : Bool), u.ret = s.ret
    ∧ exec (.consumeBit b) s = .next { u with ret := .bit e }
    ∧ (s.fault = false →
        exec (.pushBit b) s = .next { u with respOut := s.respOut ++ [⟨.ok, if e then 1 else 0⟩] })

/-- R172, R175: `JudgeHeader` run alone on a full header register, in each of the five layouts: it drops the header exactly
when the validation of the layout `VARIANT` selects (R16, R130), run alone on the same state, answers 0, and otherwise
emits exactly the record that this layout's extraction answers, with its length counted. -/
def Obligations.JudgeHeaderEmitsOrDrops : Prop :=
  ∀ s : State, s.params.Legal → s.cfg.valid s.params = true → s.hrBits.length = s.params.hrCap →
    s.hrLen.toNat = s.cfg.htgt →
    (exec (hdrOkOf s.cfg.variant) s = .next { s with ret := .bit false } ∧
        exec .judgeHeader s = .next { s with fsm := .syncSearch, hrLen := 0, ret := .bit false })
      ∨ ∃ (len : Half) (r : Record), exec (hdrOkOf s.cfg.variant) s = .next { s with ret := .bit true } ∧
        exec (hdrPayloadOf s.cfg.variant) s = .next { s with ret := .payload len r } ∧
        exec .judgeHeader s =
          .next { s with
            recOut := s.recOut ++ [{ r with skip := s.nskip }]
            nskip := 0
            hrLen := 0
            fsm := if 8 * len.toNat / s.cfg.bps.toNat = 0 then .syncSearch else .haveHeader
            payloadRemain := if 8 * len.toNat / s.cfg.bps.toNat = 0 then s.payloadRemain
              else BitVec.ofNat 32 (8 * len.toNat / s.cfg.bps.toNat)
            ret := .bit true }

/-- R179: the result of a stream does not depend on how it is divided into bursts. -/
def Obligations.BurstsOfAStreamCompose : Prop :=
  ∀ (xs ys : List Bool) (s : State), s.Inv → s.fault = false →
    ∃ t : State, t.Inv ∧ t.fault = false ∧ pushAll xs s = .next t ∧ pushAll (xs ++ ys) s = pushAll ys t

/-! ## Header buffer and header register -/

/-- R101, R102, R104: `HBAddField` appends `w` bytes at the cursor, most significant first, or least significant first
in the already-big-endian form of the wider overloads; an operand outside the range is refused (the model's choice, log
entry 12); `HBLength` answers the bytes written so far. -/
def Obligations.HeaderBufferFields : Prop :=
  (∀ (n : Overload) (w : Nat) (v : Word) (bs : Bool) (s : State), w ≤ n.bytes →
      ∃ bytes : List Byte, bytes.length = w
        ∧ exec (.hbAddField n w v bs) s = .next { s with hb := s.hb ++ bytes }
        ∧ (bs = true → exec (.hbAddFieldBigEndian n w v) s = .next { s with hb := s.hb ++ bytes })
        ∧ ∀ i, i < w → bytes[i]? = some (BitVec.ofNat 8
            (if bs = true ∧ n ≠ .bits8 then v.toNat / 2 ^ (8 * i) else v.toNat / 2 ^ (8 * (w - 1 - i)))))
    ∧ (∀ (n : Overload) (w : Nat) (v : Word) (bs : Bool) (s : State), n.bytes < w →
        exec (.hbAddField n w v bs) s = .refused .illFormed
          ∧ exec (.hbAddFieldBigEndian n w v) s = .refused .illFormed)
    ∧ ∀ s : State, exec .hbLength s = .next { s with ret := .word (BitVec.ofNat 64 s.hb.length) }

/-- R110, R114: inserting and clearing. R111, R113: a field, first bit as most or as least significant. R55, R112: a bit
of a cell at or above `HR.len` is a free draw, of which nothing is said; only then does the model's own draw counter
change. That an insertion into a full register faults and that a width outside 1 to 64 is refused are the model's choices
(log entries 10 and 12). -/
def Obligations.HeaderRegisterInsertClearAndExtracts : Prop :=
  (∀ (b : Bool) (s : State), s.hrLen.toNat < s.hrBits.length →
      exec (.hrInsert b) s = .next { s with hrBits := s.hrBits.set s.hrLen.toNat b, hrLen := s.hrLen + 1 })
    ∧ (∀ s : State, exec .hrClear s = .next { s with hrLen := 0 })
    ∧ (∀ (b : Bool) (s : State), s.hrBits.length ≤ s.hrLen.toNat → exec (.hrInsert b) s = .fault .headerRegisterFull)
    ∧ (∀ (off w : Nat) (s : State), w = 0 ∨ 64 < w →
        exec (.hrExtract off w) s = .refused .illFormed ∧ exec (.hrExtractLsb off w) s = .refused .illFormed)
    ∧ ∀ (off w : Nat) (s : State), 1 ≤ w → w ≤ 64 → s.hrLen.toNat ≤ s.hrBits.length →
      ∃ (m l : Word) (d : Nat), exec (.hrExtract off w) s = .next { s with draws := d, ret := .word m }
        ∧ exec (.hrExtractLsb off w) s = .next { s with draws := d, ret := .word l }
        ∧ m.toNat < 2 ^ w ∧ l.toNat < 2 ^ w
        ∧ (∀ i, i < w → off + i < s.hrLen.toNat →
            some (m.getLsbD (w - 1 - i)) = s.hrBits[off + i]? ∧ some (l.getLsbD i) = s.hrBits[off + i]?)
        ∧ (off + w ≤ s.hrLen.toNat → d = s.draws)

/-! ## CRC, scrambler, symbol count -/

/-- R131, R132, R65: the CRC of a byte string is that of its bits, most significant first, and `crc_of` is the CRC of the
length and the counter as two little-endian 16-bit values, the length first. -/
def Obligations.CrcIsTheBitSerialRemainder : Prop :=
  (∀ (bytes : List Byte) (s : State), exec (.crc8 bytes) s =
      .next { s with ret := .word (((bytes.flatMap msbFirst).foldl crcSerial 0xFF#8).setWidth 64) })
    ∧ ∀ (l c : BitVec 12) (s : State),
        let message : List Byte :=
          [l.extractLsb' 0 8, (l.extractLsb' 8 4).setWidth 8, c.extractLsb' 0 8, (c.extractLsb' 8 4).setWidth 8]
        exec (.crcOf l c) s =
          .next { s with ret := .word (((message.flatMap msbFirst).foldl crcSerial 0xFF#8).setWidth 64) }

/-- R151: `SEQ` is the parameter `SCRAMBLE_SEQ`; its default begins with the 64 bits the rule lists. The default is the
spec's general knowledge, not TGR's (log entry 2). -/
def Obligations.ScrambleSequenceIsTheParameter : Prop :=
  (∀ s : State, exec .seq s = .next { s with ret := .bits s.params.scrambleSeq })
    ∧ defaultParams.scrambleSeq.length = 512
    ∧ (defaultParams.scrambleSeq.take 64).foldl (fun v b => 2 * v + b.toNat) 0 = 0xF66AFC10C53D1C96

/-- R155: `ofdm_symbols(P)` is the least number of symbols whose occupied carriers hold `P` bits, the walk wrapping modulo
`OCC_LEN`; 0 for `P = 0`. That a walk which can never end stops is the model's choice (log entry 10). -/
def Obligations.OfdmSymbolsIsTheLeastSufficientCount : Prop :=
  (∀ (p : BitVec 32) (s : State), p ≠ 0 →
    (s.cfg.payloadBps = 0 ∨ ¬ InUse s.cfg.occ s.cfg.occLen.toNat) →
    exec (.ofdmSymbols p) s = .fault .occupancyWalk)
  ∧ (∀ s : State, exec (.ofdmSymbols 0) s = .next { s with ret := .word 0 })
  ∧ ∀ (p : BitVec 32) (s : State), 1 ≤ s.cfg.payloadBps.toNat → 1 ≤ s.cfg.occLen.toNat →
    s.cfg.occLen.toNat ≤ s.cfg.occ.length → InUse s.cfg.occ s.cfg.occLen.toNat →
    ∃ n : Nat, p.toNat ≤ carried s.cfg.occ s.cfg.occLen.toNat s.cfg.payloadBps.toNat n
      ∧ (∀ m, m < n → carried s.cfg.occ s.cfg.occLen.toNat s.cfg.payloadBps.toNat m < p.toNat)
      ∧ exec (.ofdmSymbols p) s = .next { s with ret := .word ((BitVec.ofNat 32 n).setWidth 64) }

/-- R158: every error of one, two or three bits in a valid CRC-layout header is detected. -/
def Obligations.CrcLayoutDetectsUpToThreeFlips : Prop :=
  ∀ (s : State) (l c : BitVec 12) (e : BitVec 32), e ≠ 0#32 → popcount e ≤ 3 →
    s.HrHolds ((List.range 32).map fun i => ((c ++ (l ++ crcOf l c) : BitVec 32) ^^^ e).getLsbD (31 - i)) →
    exec .crcHdrOk s = .next { s with ret := .bit false }

/-! ## The layouts -/

/-- R140, R143, R160: the bytes of a Default and of a Counter header, as the primitive writes them and as `FORMAT` emits
them, and the counter afterwards. That the primitive takes a length above 65535 modulo `2^16` is the model's reading (log
entry 11); `FORMAT` refuses it. -/
def Obligations.CodedHeadersOnTheWire : Prop :=
  ∀ (L : Word) (s : State), s.cfg.variant.hasCode = true → s.cfg.acLen.toNat ≤ 64 → s.cfg.acLen.toNat % 8 = 0 →
    let code : List Byte := bytesBe (s.cfg.acLen.toNat / 8) s.cfg.acPattern.toNat
    let lengths : List Byte := bigEndian16 (BitVec.ofNat 16 L.toNat) ++ bigEndian16 (BitVec.ofNat 16 L.toNat)
    let tail : List Byte := bigEndian16 (BitVec.ofNat 16 s.cfg.bps.toNat) ++ bigEndian16 s.txCounter
    exec (.defaultFormatBytes L) s = .next { s with hb := s.hb ++ (code ++ lengths) }
      ∧ exec (.counterFormatBytes L) s =
          .next { s with hb := s.hb ++ (code ++ lengths ++ tail), txCounter := s.txCounter + 1 }
      ∧ (s.fault = false → L.toNat ≤ 65535 → s.cfg.variant = .default → exec (.format L) s =
          .next { s with hb := [], hdrOut := s.hdrOut ++ (code ++ lengths),
                         respOut := s.respOut ++ [⟨.ok, BitVec.ofNat 64 (s.cfg.acLen.toNat / 8 + 4)⟩] })
      ∧ (s.fault = false → L.toNat ≤ 65535 → s.cfg.variant = .counter → exec (.format L) s =
          .next { s with hb := [], hdrOut := s.hdrOut ++ (code ++ lengths ++ tail), txCounter := s.txCounter + 1,
                         respOut := s.respOut ++ [⟨.ok, BitVec.ofNat 64 (s.cfg.acLen.toNat / 8 + 8)⟩] })

/-- R146, R133, R160: the four bytes of a CRC-layout header, and the counter modulo `2^12`. -/
def Obligations.CrcHeaderOnTheWire : Prop :=
  ∀ (L : Word) (s : State),
    let l : Nat := L.toNat % 4096
    let c : Nat := s.txCounter.toNat % 4096
    let word : Nat := c * 2 ^ 20 + l * 2 ^ 8 + (crcOf (BitVec.ofNat 12 l) (BitVec.ofNat 12 c)).toNat
    let bytes : List Byte := [BitVec.ofNat 8 (word / 2 ^ 24), BitVec.ofNat 8 (word / 2 ^ 16),
      BitVec.ofNat 8 (word / 2 ^ 8), BitVec.ofNat 8 word]
    exec (.crcFormatBytes L) s =
        .next { s with hb := s.hb ++ bytes, txCounter := BitVec.ofNat 16 ((c + 1) % 4096) }
      ∧ (s.fault = false → s.cfg.variant = .crc → exec (.format L) s =
          .next { s with hb := [], hdrOut := s.hdrOut ++ bytes, txCounter := BitVec.ofNat 16 ((c + 1) % 4096),
                         respOut := s.respOut ++ [⟨.ok, 4⟩] })

/-- R149, R150, R154, R160: a VariableBits header is `HDR_UNITS` bytes, byte `j div BPS` holding header-stream bit `j` in
its bit `j mod BPS`, its bits from `BPS` on 0; an OFDM header is the same with stream bit `j` XORed with `SEQ[j]`. -/
def Obligations.UnitHeadersOnTheWire : Prop :=
  ∀ (L : Word) (s : State), s.params.Legal → s.cfg.valid s.params = true → s.cfg.variant.usesUnits = true →
    let b : Nat := s.cfg.bps.toNat
    let units : Nat := s.cfg.hdrUnits.toNat
    let l : BitVec 12 := BitVec.ofNat 12 L.toNat
    let c : BitVec 12 := BitVec.ofNat 12 s.txCounter.toNat
    let next : Half := BitVec.ofNat 16 ((s.txCounter.toNat % 4096 + 1) % 4096)
    ∃ plain mixed : List Byte, plain.length = units ∧ mixed.length = units
      ∧ (∀ k q, k < units → q < 8 → ∃ x y : Byte, plain[k]? = some x ∧ mixed[k]? = some y
          ∧ x.getLsbD q = (decide (q < b) && unitHeaderBit b l c (crcOf l c) (k * b + q))
          ∧ y.getLsbD q = (decide (q < b) &&
              (unitHeaderBit b l c (crcOf l c) (k * b + q) ^^ (s.params.scrambleSeq[k * b + q]?).getD false)))
      ∧ exec (.variableBitsFormatBytes L) s = .next { s with hb := s.hb ++ plain, txCounter := next }
      ∧ (s.hb = [] → exec (.ofdmFormatBytes L) s = .next { s with hb := mixed, txCounter := next })
      ∧ (s.fault = false → exec (.format L) s =
          .next { s with hb := [], hdrOut := s.hdrOut ++ (if s.cfg.variant = .ofdm then mixed else plain),
                         txCounter := next, respOut := s.respOut ++ [⟨.ok, BitVec.ofNat 64 units⟩] })

/-- R160, R134, R223: in Default and Counter `FMT_UNSUP` comes first, then `FMT_LEN`; a failed `FORMAT` emits no byte and
leaves `TX_COUNTER`. R105: a `FORMAT` that succeeds emits exactly `header_nbytes` bytes. That `format_bytes` of the two
layouts called on its own without its precondition `effL mod 8 = 0` (R140, R143) stops is the model's choice (log entry
11). -/
def Obligations.FormatRefusalsAndLength : Prop :=
  (∀ (L : Word) (s : State), s.fault = false → s.cfg.variant.hasCode = true →
      (s.cfg.acLen.toNat % 8 ≠ 0 →
        exec (.format L) s = .next { s with lastErr := 0x05#8, respOut := s.respOut ++ [⟨.fmtUnsup, 0⟩] })
      ∧ (s.cfg.acLen.toNat % 8 = 0 → 65535 < L.toNat →
        exec (.format L) s = .next { s with lastErr := 0x04#8, respOut := s.respOut ++ [⟨.fmtLen, 0⟩] }))
    ∧ (∀ (L : Word) (s : State), s.cfg.effL % 8 ≠ 0 →
      exec (.defaultFormatBytes L) s = .fault .formatPrecondition
        ∧ exec (.counterFormatBytes L) s = .fault .formatPrecondition)
    ∧ ∀ (L : Word) (s : State), s.params.Legal → s.cfg.valid s.params = true → s.fault = false →
      (s.cfg.variant.hasCode = true → s.cfg.acLen.toNat % 8 = 0 ∧ L.toNat ≤ 65535) →
      ∃ (t : State) (h : List Byte), exec (.format L) s = .next t ∧ t.hdrOut = s.hdrOut ++ h
        ∧ h.length = s.cfg.headerNbytes ∧ t.respOut = s.respOut ++ [⟨.ok, BitVec.ofNat 64 s.cfg.headerNbytes⟩]

/-- R141, R142, R144, R145: a Default header is valid when its two length copies are equal, and so is a Counter header,
whose other fields are not checked; what each extracts. That the record's `len` holds the length in these layouts is the
model's reading of R45, log entry 9. -/
def Obligations.LengthPairHeadersAreJudgedAndRead : Prop :=
  ∀ (x y p n : Half) (s : State),
    (s.HrHolds ((bigEndian16 x ++ bigEndian16 y).flatMap msbFirst) →
      exec .defaultHdrOk s = .next { s with ret := .bit (decide (x = y)) }
        ∧ exec .defaultHdrPayload s = .next { s with ret := .payload x (plainRecord .default x 0 0 0) })
    ∧ (s.HrHolds ((bigEndian16 x ++ bigEndian16 y ++ bigEndian16 p ++ bigEndian16 n).flatMap msbFirst) →
      exec .counterHdrOk s = .next { s with ret := .bit (decide (x = y)) }
        ∧ exec .counterHdrPayload s = .next { s with ret := .payload x (plainRecord .counter x p n 0) })

/-- R147, R148: a CRC-layout header is valid when its CRC is that of its length and counter; what it extracts. That
the record's `len` holds the length in this layout is the model's reading of R45, log entry 9. -/
def Obligations.CrcHeadersAreJudgedAndRead : Prop :=
  ∀ (l c : BitVec 12) (k : Byte) (s : State),
    s.HrHolds ((List.range 32).map fun i => (c ++ (l ++ k) : BitVec 32).getLsbD (31 - i)) →
    exec .crcHdrOk s = .next { s with ret := .bit (decide (crcOf l c = k)) }
      ∧ exec .crcHdrPayload s =
          .next { s with ret := .payload (l.setWidth 16) (plainRecord .crc (l.setWidth 16) 0 (c.setWidth 16) 0) }

/-- R152, R153, R156, R157: a VariableBits header is judged and read from its three fields alone, whatever its padding
and fill; an OFDM header likewise after descrambling, with its symbol count. -/
def Obligations.UnitHeadersAreJudgedAndRead : Prop :=
  ∀ (l c : BitVec 12) (k : Byte) (bits : List Bool) (s : State), s.params.Legal → s.cfg.valid s.params = true →
    s.cfg.variant.usesUnits = true → bits.length = s.cfg.htgt →
    (∀ j, j < s.cfg.htgt →
      (j < 12 ∨ (ceilDiv 12 s.cfg.bps.toNat * s.cfg.bps.toNat ≤ j ∧ j < ceilDiv 12 s.cfg.bps.toNat * s.cfg.bps.toNat + 12)
        ∨ (2 * ceilDiv 12 s.cfg.bps.toNat * s.cfg.bps.toNat ≤ j
            ∧ j < 2 * ceilDiv 12 s.cfg.bps.toNat * s.cfg.bps.toNat + 8)) →
      bits[j]? = some (unitHeaderBit s.cfg.bps.toNat l c k j)) →
    (s.HrHolds bits →
      exec .variableBitsHdrOk s = .next { s with ret := .bit (decide (crcOf l c = k)) }
        ∧ exec .variableBitsHdrPayload s =
            .next { s with ret := .payload (l.setWidth 16) (plainRecord .variableBits (l.setWidth 16) 0 (c.setWidth 16) 0) })
    ∧ (s.HrHolds (bits.mapIdx fun j x => x ^^ (s.params.scrambleSeq[j]?).getD false) →
      exec .ofdmHdrOk s = .next { s with ret := .bit (decide (crcOf l c = k)) }
        ∧ (s.cfg.variant = .ofdm → ∃ n : BitVec 32,
            exec (.ofdmSymbols (BitVec.ofNat 32 (8 * l.toNat))) s = .next { s with ret := .word (n.setWidth 64) }
            ∧ exec .ofdmHdrPayload s =
              .next { s with ret := .payload (l.setWidth 16) (plainRecord .ofdm (l.setWidth 16) 0 (c.setWidth 16) n) }))

/-! ## Round trips -/

/-- R183 for Default and Counter: the header that `FORMAT L` emits, pushed after bits that cause no match, emits one record
with `payload_bits = 8*L` and `skip = n + header_nbits`, on its last bit. -/
def Obligations.CodedHeaderRoundTrip : Prop :=
  ∀ (L : Word) (s t u : State) (h : List Byte) (pre : List Bool),
    s.Inv → s.fault = false → s.cfg.variant.hasCode = true → s.cfg.acLen.toNat % 8 = 0 → s.cfg.effL ≠ 0 →
    L.toNat ≤ 65535 → exec (.format L) s = .next t → t.hdrOut = s.hdrOut ++ h →
    u.Inv → u.fault = false → u.params = s.params → u.cfg = s.cfg → u.fsm = .syncSearch → u.nskip = 0 →
    NoEarlyMatch u (pre ++ wireBits s.cfg h) (pre.length + s.cfg.effL) →
    ∃ (v : State) (r : Record), pushAll (pre ++ wireBits s.cfg h) u = .next v ∧ v.recOut = u.recOut ++ [r]
      ∧ r.payloadBits = BitVec.ofNat 32 (8 * L.toNat)
      ∧ r.skip = BitVec.ofNat 64 (pre.length + s.cfg.headerNbits)
      ∧ v.respOut.getLast? = some ⟨.ok, 1⟩

/-- R183 for the layouts without an access code, and for Default and Counter with an empty one: the header that
`FORMAT L` emits, pushed in `SyncSearch`, emits one record with `payload_bits = 8*L'` and `skip = header_nbits`, where
`L'` is `L`, or `L mod 4096` in the 12-bit layouts. -/
def Obligations.UncodedHeaderRoundTrip : Prop :=
  ∀ (L : Word) (s t u : State) (h : List Byte),
    s.Inv → s.fault = false → s.cfg.effL = 0 → (s.cfg.variant.hasCode = true → L.toNat ≤ 65535) →
    exec (.format L) s = .next t → t.hdrOut = s.hdrOut ++ h →
    u.Inv → u.fault = false → u.params = s.params → u.cfg = s.cfg → u.fsm = .syncSearch → u.nskip = 0 →
    ∃ (v : State) (r : Record), pushAll (wireBits s.cfg h) u = .next v ∧ v.recOut = u.recOut ++ [r]
      ∧ r.payloadBits = BitVec.ofNat 32 (8 * sentLen s.cfg L)
      ∧ r.skip = BitVec.ofNat 64 s.cfg.headerNbits
      ∧ v.respOut.getLast? = some ⟨.ok, 1⟩

/-! ## Records and pseudo-commands -/

/-- R45: every record's dictionary begins with the payload bit count and the skip count, and has the layout's further
keys, in the order of the table. -/
def Obligations.DictionaryKeysByLayout : Prop :=
  ∀ r : Record,
    r.dictionary.map Prod.fst = ["payload bits", "skip samps"] ++
      (match r.variant with
        | .default => []
        | .counter => ["bps", "counter"]
        | .crc => ["counter"]
        | .variableBits => ["packet length", "counter"]
        | .ofdm => ["packet length", "counter", "ofdm symbols"])
    ∧ r.dictionary.take 2 = [("payload bits", r.payloadBits.toNat), ("skip samps", r.skip.toNat)]

/-- R89, R63, R64: the commands of `PUSH_BYTES` and `PUSH_UNITS` decode to one `PUSH_BIT` per stream bit, in order. -/
def Obligations.PseudoPushesDecodeToTheStream : Prop :=
  (∀ xs : List Byte, (Asm.pushBytes xs).map decode = (xs.flatMap msbFirst).map fun b => .ok (.pushBit b))
    ∧ ∀ (b : Nat) (us : List Byte),
        (Asm.pushUnits b us).map decode = (us.flatMap (unitBits b)).map fun q => .ok (.pushBit q)
end

