-- ==== Sys2Proof/Laws/Assembler.lean ====
section
/-! SUPPORT. What the access-code string conversion of R90 can do: exactly the strings of '0' and '1' are bits, and a string
is assembled exactly when it is one of at most 64 characters. -/

namespace Sys2Proof.Asm

/-- The character of a bit in an access-code string (R90). -/
def bitChar (b : Bool) : Char := if b then '1' else '0'

/-- A string is bits exactly when each of its characters is '0' or '1', in order: no other character, white space among
them, is dropped (R90). -/
theorem stringBits_eq_some {s : List Char} {bits : List Bool} : stringBits s = some bits ↔ s = bits.map bitChar := by
  induction s generalizing bits with
  | nil => cases bits <;> simp [stringBits]
  | cons c cs ih =>
    unfold stringBits
    split
    · cases bits with
      | nil => simp
      | cons b bs => cases b <;> simp_all [bitChar]
    · split
      · cases bits with
        | nil => simp
        | cons b bs => cases b <;> simp_all [bitChar]
      · cases bits with
        | nil => simp
        | cons b bs => cases b <;> simp_all [bitChar]

/-- `SET_ACCESS_CODE` assembles exactly the strings of at most 64 characters '0' and '1', to one command with the length in
`ARG` and the pattern in `DATA` (R90). -/
theorem setAccessCode_eq_some {s : List Char} {cs : List Command} : setAccessCode s = some cs ↔
    ∃ bits : List Bool, s = bits.map bitChar ∧ bits.length ≤ 64 ∧ cs = [command 0x11 bits.length (pattern bits)] := by
  unfold setAccessCode
  constructor
  · intro h
    split at h
    · rename_i bits hb
      split at h
      · exact ⟨bits, stringBits_eq_some.mp hb, ‹_›, by simpa using h.symm⟩
      · cases h
    · cases h
  · rintro ⟨bits, hs, hl, rfl⟩
    simp [stringBits_eq_some.mpr hs, hl]

end Sys2Proof.Asm
end

