-- ==== Sys2Proof/Laws/State.lean ====
section
/-! SUPPORT. One lemma per field per named update of the state, so that no later proof unfolds a record update. -/

namespace Sys2Proof.Machine

/-! ## `State.respond` -/

@[simp] theorem State.respond_params (st : Status) (v : Word) (s : State) : (s.respond st v).params = s.params := rfl
@[simp] theorem State.respond_cfg (st : Status) (v : Word) (s : State) : (s.respond st v).cfg = s.cfg := rfl
@[simp] theorem State.respond_fsm (st : Status) (v : Word) (s : State) : (s.respond st v).fsm = s.fsm := rfl
@[simp] theorem State.respond_dataReg (st : Status) (v : Word) (s : State) : (s.respond st v).dataReg = s.dataReg
    := rfl
@[simp] theorem State.respond_hrBits (st : Status) (v : Word) (s : State) : (s.respond st v).hrBits = s.hrBits := rfl
@[simp] theorem State.respond_hrLen (st : Status) (v : Word) (s : State) : (s.respond st v).hrLen = s.hrLen := rfl
@[simp] theorem State.respond_nskip (st : Status) (v : Word) (s : State) : (s.respond st v).nskip = s.nskip := rfl
@[simp] theorem State.respond_payloadRemain (st : Status) (v : Word) (s : State) :
    (s.respond st v).payloadRemain = s.payloadRemain := rfl
@[simp] theorem State.respond_txCounter (st : Status) (v : Word) (s : State) : (s.respond st v).txCounter = s.txCounter
    := rfl
@[simp] theorem State.respond_fault (st : Status) (v : Word) (s : State) : (s.respond st v).fault = s.fault := rfl
@[simp] theorem State.respond_lastErr (st : Status) (v : Word) (s : State) : (s.respond st v).lastErr = s.lastErr
    := rfl
@[simp] theorem State.respond_hdrOut (st : Status) (v : Word) (s : State) : (s.respond st v).hdrOut = s.hdrOut := rfl
@[simp] theorem State.respond_recOut (st : Status) (v : Word) (s : State) : (s.respond st v).recOut = s.recOut := rfl
@[simp] theorem State.respond_respOut (st : Status) (v : Word) (s : State) :
    (s.respond st v).respOut = s.respOut ++ [⟨st, v⟩] := rfl
@[simp] theorem State.respond_cmdIn (st : Status) (v : Word) (s : State) : (s.respond st v).cmdIn = s.cmdIn := rfl
@[simp] theorem State.respond_hb (st : Status) (v : Word) (s : State) : (s.respond st v).hb = s.hb := rfl
@[simp] theorem State.respond_draws (st : Status) (v : Word) (s : State) : (s.respond st v).draws = s.draws := rfl
@[simp] theorem State.respond_ret (st : Status) (v : Word) (s : State) : (s.respond st v).ret = s.ret := rfl

/-! ## `State.fail` -/

@[simp] theorem State.fail_params (st : Status) (s : State) : (s.fail st).params = s.params := rfl
@[simp] theorem State.fail_cfg (st : Status) (s : State) : (s.fail st).cfg = s.cfg := rfl
@[simp] theorem State.fail_fsm (st : Status) (s : State) : (s.fail st).fsm = s.fsm := rfl
@[simp] theorem State.fail_dataReg (st : Status) (s : State) : (s.fail st).dataReg = s.dataReg := rfl
@[simp] theorem State.fail_hrBits (st : Status) (s : State) : (s.fail st).hrBits = s.hrBits := rfl
@[simp] theorem State.fail_hrLen (st : Status) (s : State) : (s.fail st).hrLen = s.hrLen := rfl
@[simp] theorem State.fail_nskip (st : Status) (s : State) : (s.fail st).nskip = s.nskip := rfl
@[simp] theorem State.fail_payloadRemain (st : Status) (s : State) : (s.fail st).payloadRemain = s.payloadRemain
    := rfl
@[simp] theorem State.fail_txCounter (st : Status) (s : State) : (s.fail st).txCounter = s.txCounter := rfl
@[simp] theorem State.fail_fault (st : Status) (s : State) : (s.fail st).fault = faultAfter s.fault st := rfl
@[simp] theorem State.fail_lastErr (st : Status) (s : State) : (s.fail st).lastErr = st.code := rfl
@[simp] theorem State.fail_hdrOut (st : Status) (s : State) : (s.fail st).hdrOut = s.hdrOut := rfl
@[simp] theorem State.fail_recOut (st : Status) (s : State) : (s.fail st).recOut = s.recOut := rfl
@[simp] theorem State.fail_respOut (st : Status) (s : State) : (s.fail st).respOut = s.respOut ++ [⟨st, 0⟩] := rfl
@[simp] theorem State.fail_cmdIn (st : Status) (s : State) : (s.fail st).cmdIn = s.cmdIn := rfl
@[simp] theorem State.fail_hb (st : Status) (s : State) : (s.fail st).hb = s.hb := rfl
@[simp] theorem State.fail_draws (st : Status) (s : State) : (s.fail st).draws = s.draws := rfl
@[simp] theorem State.fail_ret (st : Status) (s : State) : (s.fail st).ret = s.ret := rfl

/-! ## `State.returns` -/

@[simp] theorem State.returns_params (r : Ret) (s : State) : (s.returns r).params = s.params := rfl
@[simp] theorem State.returns_cfg (r : Ret) (s : State) : (s.returns r).cfg = s.cfg := rfl
@[simp] theorem State.returns_fsm (r : Ret) (s : State) : (s.returns r).fsm = s.fsm := rfl
@[simp] theorem State.returns_dataReg (r : Ret) (s : State) : (s.returns r).dataReg = s.dataReg := rfl
@[simp] theorem State.returns_hrBits (r : Ret) (s : State) : (s.returns r).hrBits = s.hrBits := rfl
@[simp] theorem State.returns_hrLen (r : Ret) (s : State) : (s.returns r).hrLen = s.hrLen := rfl
@[simp] theorem State.returns_nskip (r : Ret) (s : State) : (s.returns r).nskip = s.nskip := rfl
@[simp] theorem State.returns_payloadRemain (r : Ret) (s : State) : (s.returns r).payloadRemain = s.payloadRemain
    := rfl
@[simp] theorem State.returns_txCounter (r : Ret) (s : State) : (s.returns r).txCounter = s.txCounter := rfl
@[simp] theorem State.returns_fault (r : Ret) (s : State) : (s.returns r).fault = s.fault := rfl
@[simp] theorem State.returns_lastErr (r : Ret) (s : State) : (s.returns r).lastErr = s.lastErr := rfl
@[simp] theorem State.returns_hdrOut (r : Ret) (s : State) : (s.returns r).hdrOut = s.hdrOut := rfl
@[simp] theorem State.returns_recOut (r : Ret) (s : State) : (s.returns r).recOut = s.recOut := rfl
@[simp] theorem State.returns_respOut (r : Ret) (s : State) : (s.returns r).respOut = s.respOut := rfl
@[simp] theorem State.returns_cmdIn (r : Ret) (s : State) : (s.returns r).cmdIn = s.cmdIn := rfl
@[simp] theorem State.returns_hb (r : Ret) (s : State) : (s.returns r).hb = s.hb := rfl
@[simp] theorem State.returns_draws (r : Ret) (s : State) : (s.returns r).draws = s.draws := rfl
@[simp] theorem State.returns_ret (r : Ret) (s : State) : (s.returns r).ret = r := rfl

/-! ## `State.hrClear` -/

@[simp] theorem State.hrClear_params (s : State) : (s.hrClear).params = s.params := rfl
@[simp] theorem State.hrClear_cfg (s : State) : (s.hrClear).cfg = s.cfg := rfl
@[simp] theorem State.hrClear_fsm (s : State) : (s.hrClear).fsm = s.fsm := rfl
@[simp] theorem State.hrClear_dataReg (s : State) : (s.hrClear).dataReg = s.dataReg := rfl
@[simp] theorem State.hrClear_hrBits (s : State) : (s.hrClear).hrBits = s.hrBits := rfl
@[simp] theorem State.hrClear_hrLen (s : State) : (s.hrClear).hrLen = 0 := rfl
@[simp] theorem State.hrClear_nskip (s : State) : (s.hrClear).nskip = s.nskip := rfl
@[simp] theorem State.hrClear_payloadRemain (s : State) : (s.hrClear).payloadRemain = s.payloadRemain := rfl
@[simp] theorem State.hrClear_txCounter (s : State) : (s.hrClear).txCounter = s.txCounter := rfl
@[simp] theorem State.hrClear_fault (s : State) : (s.hrClear).fault = s.fault := rfl
@[simp] theorem State.hrClear_lastErr (s : State) : (s.hrClear).lastErr = s.lastErr := rfl
@[simp] theorem State.hrClear_hdrOut (s : State) : (s.hrClear).hdrOut = s.hdrOut := rfl
@[simp] theorem State.hrClear_recOut (s : State) : (s.hrClear).recOut = s.recOut := rfl
@[simp] theorem State.hrClear_respOut (s : State) : (s.hrClear).respOut = s.respOut := rfl
@[simp] theorem State.hrClear_cmdIn (s : State) : (s.hrClear).cmdIn = s.cmdIn := rfl
@[simp] theorem State.hrClear_hb (s : State) : (s.hrClear).hb = s.hb := rfl
@[simp] theorem State.hrClear_draws (s : State) : (s.hrClear).draws = s.draws := rfl
@[simp] theorem State.hrClear_ret (s : State) : (s.hrClear).ret = s.ret := rfl

/-! ## `State.framingReset` -/

@[simp] theorem State.framingReset_params (s : State) : (s.framingReset).params = s.params := rfl
@[simp] theorem State.framingReset_cfg (s : State) : (s.framingReset).cfg = s.cfg := rfl
@[simp] theorem State.framingReset_fsm (s : State) : (s.framingReset).fsm = .syncSearch := rfl
@[simp] theorem State.framingReset_dataReg (s : State) : (s.framingReset).dataReg = 0 := rfl
@[simp] theorem State.framingReset_hrBits (s : State) : (s.framingReset).hrBits = s.hrBits := rfl
@[simp] theorem State.framingReset_hrLen (s : State) : (s.framingReset).hrLen = 0 := rfl
@[simp] theorem State.framingReset_nskip (s : State) : (s.framingReset).nskip = 0 := rfl
@[simp] theorem State.framingReset_payloadRemain (s : State) : (s.framingReset).payloadRemain = 0 := rfl
@[simp] theorem State.framingReset_txCounter (s : State) : (s.framingReset).txCounter = s.txCounter := rfl
@[simp] theorem State.framingReset_fault (s : State) : (s.framingReset).fault = s.fault := rfl
@[simp] theorem State.framingReset_lastErr (s : State) : (s.framingReset).lastErr = s.lastErr := rfl
@[simp] theorem State.framingReset_hdrOut (s : State) : (s.framingReset).hdrOut = s.hdrOut := rfl
@[simp] theorem State.framingReset_recOut (s : State) : (s.framingReset).recOut = s.recOut := rfl
@[simp] theorem State.framingReset_respOut (s : State) : (s.framingReset).respOut = s.respOut := rfl
@[simp] theorem State.framingReset_cmdIn (s : State) : (s.framingReset).cmdIn = s.cmdIn := rfl
@[simp] theorem State.framingReset_hb (s : State) : (s.framingReset).hb = s.hb := rfl
@[simp] theorem State.framingReset_draws (s : State) : (s.framingReset).draws = s.draws := rfl
@[simp] theorem State.framingReset_ret (s : State) : (s.framingReset).ret = s.ret := rfl

/-! ## `State.addField` -/

@[simp] theorem State.addField_params (n : Overload) (w v : Nat) (bs : Bool) (s : State) :
    (s.addField n w v bs).params = s.params := rfl
@[simp] theorem State.addField_cfg (n : Overload) (w v : Nat) (bs : Bool) (s : State) :
    (s.addField n w v bs).cfg = s.cfg := rfl
@[simp] theorem State.addField_fsm (n : Overload) (w v : Nat) (bs : Bool) (s : State) :
    (s.addField n w v bs).fsm = s.fsm := rfl
@[simp] theorem State.addField_dataReg (n : Overload) (w v : Nat) (bs : Bool) (s : State) :
    (s.addField n w v bs).dataReg = s.dataReg := rfl
@[simp] theorem State.addField_hrBits (n : Overload) (w v : Nat) (bs : Bool) (s : State) :
    (s.addField n w v bs).hrBits = s.hrBits := rfl
@[simp] theorem State.addField_hrLen (n : Overload) (w v : Nat) (bs : Bool) (s : State) :
    (s.addField n w v bs).hrLen = s.hrLen := rfl
@[simp] theorem State.addField_nskip (n : Overload) (w v : Nat) (bs : Bool) (s : State) :
    (s.addField n w v bs).nskip = s.nskip := rfl
@[simp] theorem State.addField_payloadRemain (n : Overload) (w v : Nat) (bs : Bool) (s : State) :
    (s.addField n w v bs).payloadRemain = s.payloadRemain := rfl
@[simp] theorem State.addField_txCounter (n : Overload) (w v : Nat) (bs : Bool) (s : State) :
    (s.addField n w v bs).txCounter = s.txCounter := rfl
@[simp] theorem State.addField_fault (n : Overload) (w v : Nat) (bs : Bool) (s : State) :
    (s.addField n w v bs).fault = s.fault := rfl
@[simp] theorem State.addField_lastErr (n : Overload) (w v : Nat) (bs : Bool) (s : State) :
    (s.addField n w v bs).lastErr = s.lastErr := rfl
@[simp] theorem State.addField_hdrOut (n : Overload) (w v : Nat) (bs : Bool) (s : State) :
    (s.addField n w v bs).hdrOut = s.hdrOut := rfl
@[simp] theorem State.addField_recOut (n : Overload) (w v : Nat) (bs : Bool) (s : State) :
    (s.addField n w v bs).recOut = s.recOut := rfl
@[simp] theorem State.addField_respOut (n : Overload) (w v : Nat) (bs : Bool) (s : State) :
    (s.addField n w v bs).respOut = s.respOut := rfl
@[simp] theorem State.addField_cmdIn (n : Overload) (w v : Nat) (bs : Bool) (s : State) :
    (s.addField n w v bs).cmdIn = s.cmdIn := rfl
@[simp] theorem State.addField_hb (n : Overload) (w v : Nat) (bs : Bool) (s : State) :
    (s.addField n w v bs).hb = s.hb ++ fieldBytes n w v bs := rfl
@[simp] theorem State.addField_draws (n : Overload) (w v : Nat) (bs : Bool) (s : State) :
    (s.addField n w v bs).draws = s.draws := rfl
@[simp] theorem State.addField_ret (n : Overload) (w v : Nat) (bs : Bool) (s : State) :
    (s.addField n w v bs).ret = s.ret := rfl

/-! ## `State.hbClear` -/

@[simp] theorem State.hbClear_params (s : State) : (s.hbClear).params = s.params := rfl
@[simp] theorem State.hbClear_cfg (s : State) : (s.hbClear).cfg = s.cfg := rfl
@[simp] theorem State.hbClear_fsm (s : State) : (s.hbClear).fsm = s.fsm := rfl
@[simp] theorem State.hbClear_dataReg (s : State) : (s.hbClear).dataReg = s.dataReg := rfl
@[simp] theorem State.hbClear_hrBits (s : State) : (s.hbClear).hrBits = s.hrBits := rfl
@[simp] theorem State.hbClear_hrLen (s : State) : (s.hbClear).hrLen = s.hrLen := rfl
@[simp] theorem State.hbClear_nskip (s : State) : (s.hbClear).nskip = s.nskip := rfl
@[simp] theorem State.hbClear_payloadRemain (s : State) : (s.hbClear).payloadRemain = s.payloadRemain := rfl
@[simp] theorem State.hbClear_txCounter (s : State) : (s.hbClear).txCounter = s.txCounter := rfl
@[simp] theorem State.hbClear_fault (s : State) : (s.hbClear).fault = s.fault := rfl
@[simp] theorem State.hbClear_lastErr (s : State) : (s.hbClear).lastErr = s.lastErr := rfl
@[simp] theorem State.hbClear_hdrOut (s : State) : (s.hbClear).hdrOut = s.hdrOut := rfl
@[simp] theorem State.hbClear_recOut (s : State) : (s.hbClear).recOut = s.recOut := rfl
@[simp] theorem State.hbClear_respOut (s : State) : (s.hbClear).respOut = s.respOut := rfl
@[simp] theorem State.hbClear_cmdIn (s : State) : (s.hbClear).cmdIn = s.cmdIn := rfl
@[simp] theorem State.hbClear_hb (s : State) : (s.hbClear).hb = [] := rfl
@[simp] theorem State.hbClear_draws (s : State) : (s.hbClear).draws = s.draws := rfl
@[simp] theorem State.hbClear_ret (s : State) : (s.hbClear).ret = s.ret := rfl

/-! ## `State.emitRec` -/

@[simp] theorem State.emitRec_params (r : Record) (s : State) : (s.emitRec r).params = s.params := rfl
@[simp] theorem State.emitRec_cfg (r : Record) (s : State) : (s.emitRec r).cfg = s.cfg := rfl
@[simp] theorem State.emitRec_fsm (r : Record) (s : State) : (s.emitRec r).fsm = s.fsm := rfl
@[simp] theorem State.emitRec_dataReg (r : Record) (s : State) : (s.emitRec r).dataReg = s.dataReg := rfl
@[simp] theorem State.emitRec_hrBits (r : Record) (s : State) : (s.emitRec r).hrBits = s.hrBits := rfl
@[simp] theorem State.emitRec_hrLen (r : Record) (s : State) : (s.emitRec r).hrLen = s.hrLen := rfl
@[simp] theorem State.emitRec_nskip (r : Record) (s : State) : (s.emitRec r).nskip = s.nskip := rfl
@[simp] theorem State.emitRec_payloadRemain (r : Record) (s : State) : (s.emitRec r).payloadRemain = s.payloadRemain
    := rfl
@[simp] theorem State.emitRec_txCounter (r : Record) (s : State) : (s.emitRec r).txCounter = s.txCounter := rfl
@[simp] theorem State.emitRec_fault (r : Record) (s : State) : (s.emitRec r).fault = s.fault := rfl
@[simp] theorem State.emitRec_lastErr (r : Record) (s : State) : (s.emitRec r).lastErr = s.lastErr := rfl
@[simp] theorem State.emitRec_hdrOut (r : Record) (s : State) : (s.emitRec r).hdrOut = s.hdrOut := rfl
@[simp] theorem State.emitRec_recOut (r : Record) (s : State) : (s.emitRec r).recOut = s.recOut ++ [r] := rfl
@[simp] theorem State.emitRec_respOut (r : Record) (s : State) : (s.emitRec r).respOut = s.respOut := rfl
@[simp] theorem State.emitRec_cmdIn (r : Record) (s : State) : (s.emitRec r).cmdIn = s.cmdIn := rfl
@[simp] theorem State.emitRec_hb (r : Record) (s : State) : (s.emitRec r).hb = s.hb := rfl
@[simp] theorem State.emitRec_draws (r : Record) (s : State) : (s.emitRec r).draws = s.draws := rfl
@[simp] theorem State.emitRec_ret (r : Record) (s : State) : (s.emitRec r).ret = s.ret := rfl

/-! ## `State.present` -/

@[simp] theorem State.present_params (c : Command) (s : State) : (s.present c).params = s.params := rfl
@[simp] theorem State.present_cfg (c : Command) (s : State) : (s.present c).cfg = s.cfg := rfl
@[simp] theorem State.present_fsm (c : Command) (s : State) : (s.present c).fsm = s.fsm := rfl
@[simp] theorem State.present_dataReg (c : Command) (s : State) : (s.present c).dataReg = s.dataReg := rfl
@[simp] theorem State.present_hrBits (c : Command) (s : State) : (s.present c).hrBits = s.hrBits := rfl
@[simp] theorem State.present_hrLen (c : Command) (s : State) : (s.present c).hrLen = s.hrLen := rfl
@[simp] theorem State.present_nskip (c : Command) (s : State) : (s.present c).nskip = s.nskip := rfl
@[simp] theorem State.present_payloadRemain (c : Command) (s : State) : (s.present c).payloadRemain = s.payloadRemain
    := rfl
@[simp] theorem State.present_txCounter (c : Command) (s : State) : (s.present c).txCounter = s.txCounter := rfl
@[simp] theorem State.present_fault (c : Command) (s : State) : (s.present c).fault = s.fault := rfl
@[simp] theorem State.present_lastErr (c : Command) (s : State) : (s.present c).lastErr = s.lastErr := rfl
@[simp] theorem State.present_hdrOut (c : Command) (s : State) : (s.present c).hdrOut = s.hdrOut := rfl
@[simp] theorem State.present_recOut (c : Command) (s : State) : (s.present c).recOut = s.recOut := rfl
@[simp] theorem State.present_respOut (c : Command) (s : State) : (s.present c).respOut = s.respOut := rfl
@[simp] theorem State.present_cmdIn (c : Command) (s : State) : (s.present c).cmdIn = c :: s.cmdIn := rfl
@[simp] theorem State.present_hb (c : Command) (s : State) : (s.present c).hb = s.hb := rfl
@[simp] theorem State.present_draws (c : Command) (s : State) : (s.present c).draws = s.draws := rfl
@[simp] theorem State.present_ret (c : Command) (s : State) : (s.present c).ret = s.ret := rfl

/-! ## `State.skipBit` -/

@[simp] theorem State.skipBit_params (s : State) : (s.skipBit).params = s.params := rfl
@[simp] theorem State.skipBit_cfg (s : State) : (s.skipBit).cfg = s.cfg := rfl
@[simp] theorem State.skipBit_fsm (s : State) : (s.skipBit).fsm = s.fsm := rfl
@[simp] theorem State.skipBit_dataReg (s : State) : (s.skipBit).dataReg = s.dataReg := rfl
@[simp] theorem State.skipBit_hrBits (s : State) : (s.skipBit).hrBits = s.hrBits := rfl
@[simp] theorem State.skipBit_hrLen (s : State) : (s.skipBit).hrLen = s.hrLen := rfl
@[simp] theorem State.skipBit_nskip (s : State) : (s.skipBit).nskip = s.nskip + 1 := rfl
@[simp] theorem State.skipBit_payloadRemain (s : State) : (s.skipBit).payloadRemain = s.payloadRemain := rfl
@[simp] theorem State.skipBit_txCounter (s : State) : (s.skipBit).txCounter = s.txCounter := rfl
@[simp] theorem State.skipBit_fault (s : State) : (s.skipBit).fault = s.fault := rfl
@[simp] theorem State.skipBit_lastErr (s : State) : (s.skipBit).lastErr = s.lastErr := rfl
@[simp] theorem State.skipBit_hdrOut (s : State) : (s.skipBit).hdrOut = s.hdrOut := rfl
@[simp] theorem State.skipBit_recOut (s : State) : (s.skipBit).recOut = s.recOut := rfl
@[simp] theorem State.skipBit_respOut (s : State) : (s.skipBit).respOut = s.respOut := rfl
@[simp] theorem State.skipBit_cmdIn (s : State) : (s.skipBit).cmdIn = s.cmdIn := rfl
@[simp] theorem State.skipBit_hb (s : State) : (s.skipBit).hb = s.hb := rfl
@[simp] theorem State.skipBit_draws (s : State) : (s.skipBit).draws = s.draws := rfl
@[simp] theorem State.skipBit_ret (s : State) : (s.skipBit).ret = s.ret := rfl

/-! ## `State.sync` -/

@[simp] theorem State.sync_params (s : State) : (s.sync).params = s.params := rfl
@[simp] theorem State.sync_cfg (s : State) : (s.sync).cfg = s.cfg := rfl
@[simp] theorem State.sync_fsm (s : State) : (s.sync).fsm = .haveSync := rfl
@[simp] theorem State.sync_dataReg (s : State) : (s.sync).dataReg = s.dataReg := rfl
@[simp] theorem State.sync_hrBits (s : State) : (s.sync).hrBits = s.hrBits := rfl
@[simp] theorem State.sync_hrLen (s : State) : (s.sync).hrLen = 0 := rfl
@[simp] theorem State.sync_nskip (s : State) : (s.sync).nskip = s.nskip := rfl
@[simp] theorem State.sync_payloadRemain (s : State) : (s.sync).payloadRemain = s.payloadRemain := rfl
@[simp] theorem State.sync_txCounter (s : State) : (s.sync).txCounter = s.txCounter := rfl
@[simp] theorem State.sync_fault (s : State) : (s.sync).fault = s.fault := rfl
@[simp] theorem State.sync_lastErr (s : State) : (s.sync).lastErr = s.lastErr := rfl
@[simp] theorem State.sync_hdrOut (s : State) : (s.sync).hdrOut = s.hdrOut := rfl
@[simp] theorem State.sync_recOut (s : State) : (s.sync).recOut = s.recOut := rfl
@[simp] theorem State.sync_respOut (s : State) : (s.sync).respOut = s.respOut := rfl
@[simp] theorem State.sync_cmdIn (s : State) : (s.sync).cmdIn = s.cmdIn := rfl
@[simp] theorem State.sync_hb (s : State) : (s.sync).hb = s.hb := rfl
@[simp] theorem State.sync_draws (s : State) : (s.sync).draws = s.draws := rfl
@[simp] theorem State.sync_ret (s : State) : (s.sync).ret = s.ret := rfl

/-! ## `State.dropHeader` -/

@[simp] theorem State.dropHeader_params (s : State) : (s.dropHeader).params = s.params := rfl
@[simp] theorem State.dropHeader_cfg (s : State) : (s.dropHeader).cfg = s.cfg := rfl
@[simp] theorem State.dropHeader_fsm (s : State) : (s.dropHeader).fsm = .syncSearch := rfl
@[simp] theorem State.dropHeader_dataReg (s : State) : (s.dropHeader).dataReg = s.dataReg := rfl
@[simp] theorem State.dropHeader_hrBits (s : State) : (s.dropHeader).hrBits = s.hrBits := rfl
@[simp] theorem State.dropHeader_hrLen (s : State) : (s.dropHeader).hrLen = 0 := rfl
@[simp] theorem State.dropHeader_nskip (s : State) : (s.dropHeader).nskip = s.nskip := rfl
@[simp] theorem State.dropHeader_payloadRemain (s : State) : (s.dropHeader).payloadRemain = s.payloadRemain := rfl
@[simp] theorem State.dropHeader_txCounter (s : State) : (s.dropHeader).txCounter = s.txCounter := rfl
@[simp] theorem State.dropHeader_fault (s : State) : (s.dropHeader).fault = s.fault := rfl
@[simp] theorem State.dropHeader_lastErr (s : State) : (s.dropHeader).lastErr = s.lastErr := rfl
@[simp] theorem State.dropHeader_hdrOut (s : State) : (s.dropHeader).hdrOut = s.hdrOut := rfl
@[simp] theorem State.dropHeader_recOut (s : State) : (s.dropHeader).recOut = s.recOut := rfl
@[simp] theorem State.dropHeader_respOut (s : State) : (s.dropHeader).respOut = s.respOut := rfl
@[simp] theorem State.dropHeader_cmdIn (s : State) : (s.dropHeader).cmdIn = s.cmdIn := rfl
@[simp] theorem State.dropHeader_hb (s : State) : (s.dropHeader).hb = s.hb := rfl
@[simp] theorem State.dropHeader_draws (s : State) : (s.dropHeader).draws = s.draws := rfl
@[simp] theorem State.dropHeader_ret (s : State) : (s.dropHeader).ret = s.ret := rfl

/-! ## `State.deliver` -/

@[simp] theorem State.deliver_params (r : Record) (s : State) : (s.deliver r).params = s.params := rfl
@[simp] theorem State.deliver_cfg (r : Record) (s : State) : (s.deliver r).cfg = s.cfg := rfl
@[simp] theorem State.deliver_fsm (r : Record) (s : State) : (s.deliver r).fsm = s.fsm := rfl
@[simp] theorem State.deliver_dataReg (r : Record) (s : State) : (s.deliver r).dataReg = s.dataReg := rfl
@[simp] theorem State.deliver_hrBits (r : Record) (s : State) : (s.deliver r).hrBits = s.hrBits := rfl
@[simp] theorem State.deliver_hrLen (r : Record) (s : State) : (s.deliver r).hrLen = 0 := rfl
@[simp] theorem State.deliver_nskip (r : Record) (s : State) : (s.deliver r).nskip = 0 := rfl
@[simp] theorem State.deliver_payloadRemain (r : Record) (s : State) : (s.deliver r).payloadRemain = s.payloadRemain
    := rfl
@[simp] theorem State.deliver_txCounter (r : Record) (s : State) : (s.deliver r).txCounter = s.txCounter := rfl
@[simp] theorem State.deliver_fault (r : Record) (s : State) : (s.deliver r).fault = s.fault := rfl
@[simp] theorem State.deliver_lastErr (r : Record) (s : State) : (s.deliver r).lastErr = s.lastErr := rfl
@[simp] theorem State.deliver_hdrOut (r : Record) (s : State) : (s.deliver r).hdrOut = s.hdrOut := rfl
@[simp] theorem State.deliver_recOut (r : Record) (s : State) :
    (s.deliver r).recOut = s.recOut ++ [{ r with skip := s.nskip }] := rfl
@[simp] theorem State.deliver_respOut (r : Record) (s : State) : (s.deliver r).respOut = s.respOut := rfl
@[simp] theorem State.deliver_cmdIn (r : Record) (s : State) : (s.deliver r).cmdIn = s.cmdIn := rfl
@[simp] theorem State.deliver_hb (r : Record) (s : State) : (s.deliver r).hb = s.hb := rfl
@[simp] theorem State.deliver_draws (r : Record) (s : State) : (s.deliver r).draws = s.draws := rfl
@[simp] theorem State.deliver_ret (r : Record) (s : State) : (s.deliver r).ret = s.ret := rfl

/-! ## `State.scramble` -/

@[simp] theorem State.scramble_params (b : Nat) (s : State) : (s.scramble b).params = s.params := rfl
@[simp] theorem State.scramble_cfg (b : Nat) (s : State) : (s.scramble b).cfg = s.cfg := rfl
@[simp] theorem State.scramble_fsm (b : Nat) (s : State) : (s.scramble b).fsm = s.fsm := rfl
@[simp] theorem State.scramble_dataReg (b : Nat) (s : State) : (s.scramble b).dataReg = s.dataReg := rfl
@[simp] theorem State.scramble_hrBits (b : Nat) (s : State) : (s.scramble b).hrBits = s.hrBits := rfl
@[simp] theorem State.scramble_hrLen (b : Nat) (s : State) : (s.scramble b).hrLen = s.hrLen := rfl
@[simp] theorem State.scramble_nskip (b : Nat) (s : State) : (s.scramble b).nskip = s.nskip := rfl
@[simp] theorem State.scramble_payloadRemain (b : Nat) (s : State) : (s.scramble b).payloadRemain = s.payloadRemain
    := rfl
@[simp] theorem State.scramble_txCounter (b : Nat) (s : State) : (s.scramble b).txCounter = s.txCounter := rfl
@[simp] theorem State.scramble_fault (b : Nat) (s : State) : (s.scramble b).fault = s.fault := rfl
@[simp] theorem State.scramble_lastErr (b : Nat) (s : State) : (s.scramble b).lastErr = s.lastErr := rfl
@[simp] theorem State.scramble_hdrOut (b : Nat) (s : State) : (s.scramble b).hdrOut = s.hdrOut := rfl
@[simp] theorem State.scramble_recOut (b : Nat) (s : State) : (s.scramble b).recOut = s.recOut := rfl
@[simp] theorem State.scramble_respOut (b : Nat) (s : State) : (s.scramble b).respOut = s.respOut := rfl
@[simp] theorem State.scramble_cmdIn (b : Nat) (s : State) : (s.scramble b).cmdIn = s.cmdIn := rfl
@[simp] theorem State.scramble_hb (b : Nat) (s : State) :
    (s.scramble b).hb = s.hb.mapIdx fun k u => if k < s.cfg.hdrUnits.toNat then u ^^^ scrambleUnit s.params b k else u := rfl
@[simp] theorem State.scramble_draws (b : Nat) (s : State) : (s.scramble b).draws = s.draws := rfl
@[simp] theorem State.scramble_ret (b : Nat) (s : State) : (s.scramble b).ret = s.ret := rfl

/-! ## `State.resetAll` -/

@[simp] theorem State.resetAll_params (s : State) : (s.resetAll).params = s.params := rfl
@[simp] theorem State.resetAll_cfg (s : State) : (s.resetAll).cfg = CfgRegs.reset s.params := rfl
@[simp] theorem State.resetAll_fsm (s : State) : (s.resetAll).fsm = .syncSearch := rfl
@[simp] theorem State.resetAll_dataReg (s : State) : (s.resetAll).dataReg = 0 := rfl
@[simp] theorem State.resetAll_hrBits (s : State) : (s.resetAll).hrBits = s.hrBits := rfl
@[simp] theorem State.resetAll_hrLen (s : State) : (s.resetAll).hrLen = 0 := rfl
@[simp] theorem State.resetAll_nskip (s : State) : (s.resetAll).nskip = 0 := rfl
@[simp] theorem State.resetAll_payloadRemain (s : State) : (s.resetAll).payloadRemain = 0 := rfl
@[simp] theorem State.resetAll_txCounter (s : State) : (s.resetAll).txCounter = 0 := rfl
@[simp] theorem State.resetAll_fault (s : State) : (s.resetAll).fault = false := rfl
@[simp] theorem State.resetAll_lastErr (s : State) : (s.resetAll).lastErr = 0 := rfl
@[simp] theorem State.resetAll_hdrOut (s : State) : (s.resetAll).hdrOut = s.hdrOut := rfl
@[simp] theorem State.resetAll_recOut (s : State) : (s.resetAll).recOut = s.recOut := rfl
@[simp] theorem State.resetAll_respOut (s : State) : (s.resetAll).respOut = s.respOut := rfl
@[simp] theorem State.resetAll_cmdIn (s : State) : (s.resetAll).cmdIn = s.cmdIn := rfl
@[simp] theorem State.resetAll_hb (s : State) : (s.resetAll).hb = s.hb := rfl
@[simp] theorem State.resetAll_draws (s : State) : (s.resetAll).draws = s.draws := rfl
@[simp] theorem State.resetAll_ret (s : State) : (s.resetAll).ret = s.ret := rfl

end Sys2Proof.Machine
end

