-- ==== Sys2Proof/Laws/Ops.lean ====
section
/-! SUPPORT. For each shared operation, once, everything it can do. Later proofs cite these instead of unfolding the
operation. -/

namespace Sys2Proof.Machine

/-! ## The command gate, errors, configuration -/

theorem gate_open {run : State → Out} {s : State} (h : s.fault = false) : gate run s = run s := by
  simp [gate, h]

theorem gate_shut {run : State → Out} {s : State} (h : s.fault = true) : gate run s = .next (s.fail .blocked) := by
  simp [gate, h]

/-- A gated command either answers `BLOCKED` under `FAULT`, or runs. -/
theorem gate_cases {run : State → Out} {s t : State} (h : gate run s = .next t) :
    (s.fault = true ∧ t = s.fail .blocked) ∨ (s.fault = false ∧ run s = .next t) := by
  cases hf : s.fault with
  | true => rw [gate_shut hf] at h; cases h; exact .inl ⟨rfl, rfl⟩
  | false => rw [gate_open hf] at h; exact .inr ⟨rfl, h⟩

theorem outcome_next {e : Except Fault State} {t : State} (h : outcome e = .next t) : e = .ok t := by
  cases e with
  | ok s => simpa [outcome] using h
  | error f => cases h

theorem configure_accepted {ok : Bool} {new : CfgRegs} {s : State} (h : ok = true) (hv : new.valid s.params = true) :
    s.configure ok new = State.respond .ok 0 (State.framingReset { s with cfg := new }) := by
  simp [State.configure, h, hv]

theorem configure_refused {ok : Bool} {new : CfgRegs} {s : State} (h : (ok && new.valid s.params) = false) :
    s.configure ok new = s.fail .cfgErr := by
  simp [State.configure, h]

/-- A configuration command is accepted with a framing reset, and its registers are valid, or refused whole. -/
theorem configure_cases (ok : Bool) (new : CfgRegs) (s : State) :
    (ok = true ∧ new.valid s.params = true ∧
        s.configure ok new = State.respond .ok 0 (State.framingReset { s with cfg := new }))
      ∨ s.configure ok new = s.fail .cfgErr := by
  by_cases h : (ok && new.valid s.params) = true
  · exact .inl ⟨by simp_all, by simp_all, configure_accepted (by simp_all) (by simp_all)⟩
  · exact .inr (configure_refused (by simpa using h))

/-! ## The header register -/

theorem hrInsert_ok {b : Bool} {s t : State} (h : hrInsert b s = .ok t) :
    s.hrLen.toNat < s.hrBits.length ∧
      t = { s with hrBits := s.hrBits.set s.hrLen.toNat b, hrLen := s.hrLen + 1 } := by
  unfold hrInsert at h
  split at h
  · exact ⟨‹_›, by simpa using h.symm⟩
  · cases h

theorem hrInsert_of_lt {b : Bool} {s : State} (h : s.hrLen.toNat < s.hrBits.length) :
    hrInsert b s = .ok { s with hrBits := s.hrBits.set s.hrLen.toNat b, hrLen := s.hrLen + 1 } := by
  simp [hrInsert, h]

/-- Below `HR.len` a cell reads as stored. -/
theorem hrCell_stored {s : State} {i : Nat} {b : Bool} (hi : i < s.hrLen.toNat) (hb : s.hrBits[i]? = some b) :
    s.hrCell i = b := by
  obtain ⟨h, heq⟩ := List.getElem?_eq_some_iff.mp hb
  simp [State.hrCell, State.hrDefined, hi, h, heq]

/-- A read that stays below `HR.len` makes no free draw. -/
theorem afterRead_defined {hi : Nat} {s : State} (h : hi ≤ s.hrLen.toNat) (hb : hi ≤ s.hrBits.length) :
    s.afterRead hi = s := by
  simp [State.afterRead, State.hrDefined, h, hb]

/-- A read changes nothing but the draw counter. -/
theorem afterRead_cases (hi : Nat) (s : State) :
    s.afterRead hi = s ∨ s.afterRead hi = { s with draws := s.draws + 1 } := by
  unfold State.afterRead; split
  · exact .inl rfl
  · exact .inr rfl

/-! ## The header buffer -/

theorem bytesLe_length (w v : Nat) : (bytesLe w v).length = w := by
  induction w generalizing v with
  | zero => rfl
  | succ w ih => simp [bytesLe, ih]

theorem bytesBe_length (w v : Nat) : (bytesBe w v).length = w := by simp [bytesBe, bytesLe_length]

theorem fieldBytes_length {n : Overload} {w v : Nat} {bs : Bool} (h : w ≤ n.bytes) :
    (fieldBytes n w v bs).length = w := by
  cases n <;> simp only [fieldBytes, Overload.bytes] at *
  · split <;> simp_all; omega
  all_goals split <;> simp [bytesLe_length, bytesBe_length]

theorem emitHeader_ok {n : Nat} {s t : State} (h : emitHeader n s = .ok t) :
    n ≤ s.hb.length ∧ t = { s with hdrOut := s.hdrOut ++ s.hb.take n } := by
  unfold emitHeader at h
  split at h
  · exact ⟨‹_›, by simpa using h.symm⟩
  · cases h

theorem addUnits_eq (units : List Byte) (s : State) : s.addUnits units = { s with hb := s.hb ++ units } := by
  induction units generalizing s with
  | nil => simp [State.addUnits]
  | cons u us ih =>
    have hu : fieldBytes .bits8 1 u.toNat false = [u] := by
      simp [fieldBytes, Overload.bytes, Nat.mod_eq_of_lt u.isLt]
    have : s.addUnits (u :: us) = (s.addField .bits8 1 u.toNat false).addUnits us := rfl
    rw [this, ih]
    simp [State.addField, hu]

/-! ## The layouts -/

theorem unitWidth_ok {s : State} {b : Nat} (h : unitWidth s = .ok b) : s.cfg.bps ≠ 0#4 ∧ b = s.cfg.bps.toNat := by
  unfold unitWidth at h
  split at h
  · cases h
  · exact ⟨‹_›, by simpa using h.symm⟩

theorem scrambledWidth_ok {s : State} {b : Nat} (h : scrambledWidth s = .ok b) :
    s.cfg.bps ≠ 0#4 ∧ b = s.cfg.bps.toNat
      ∧ max (s.cfg.hdrUnits.toNat * b) (unitSpan b) ≤ s.params.scrambleSeq.length := by
  unfold scrambledWidth at h
  split at h
  · cases h
  · rename_i b' hb
    split at h
    · obtain ⟨h1, h2⟩ := unitWidth_ok hb
      cases h
      exact ⟨h1, h2, ‹_›⟩
    · cases h

/-- What the two coded layouts write first, when `effL mod 8 = 0`. -/
theorem codeAndLengths_ok {len : Word} {s t : State} (h : codeAndLengths len s = .ok t) :
    s.cfg.effL % 8 = 0 ∧
      t = { s with hb := s.hb ++ (fieldBytes .bits64 (s.cfg.effL / 8) s.cfg.acPattern.toNat false ++
              (fieldBytes .bits16 2 len.toNat false ++ fieldBytes .bits16 2 len.toNat false)) } := by
  unfold codeAndLengths at h
  split at h
  · rename_i hc
    refine ⟨hc, ?_⟩
    simpa [State.addField] using h.symm
  · cases h

/-- No layout's `format_bytes` touches anything but the header buffer and `TX_COUNTER` (R78). -/
theorem formatBytes_frame {len : Word} {s t : State} (h : formatBytes len s = .ok t) :
    t = { s with hb := t.hb, txCounter := t.txCounter } := by
  unfold formatBytes at h
  split at h
  · obtain ⟨-, -, rfl⟩ := codeAndLengths_ok h; rfl
  · unfold counterFormatBytes at h
    split at h
    · cases h
    · obtain ⟨-, -, rfl⟩ := codeAndLengths_ok ‹_›; cases h; rfl
  · cases h; rfl
  · unfold variableBitsFormatBytes at h
    split at h
    · cases h
    · simp only [addUnits_eq] at h; cases h; rfl
  · unfold ofdmFormatBytes at h
    split at h
    · cases h
    · split at h
      · cases h
      · rename_i hv
        unfold variableBitsFormatBytes at hv
        split at hv
        · cases hv
        · simp only [addUnits_eq] at hv; cases hv; cases h; rfl

/-- What a successful `FORMAT` builds: `header_nbytes` bytes of the layout's buffer go out, the buffer is empty again, and
nothing but `TX_COUNTER` changes besides (R160, R78). -/
theorem buildHeader_ok {len : Word} {s t : State} (h : buildHeader len s = .ok t) :
    ∃ u, formatBytes len s.hbClear = .ok u ∧ s.cfg.headerNbytes ≤ u.hb.length ∧
      t = { s with hb := [], hdrOut := s.hdrOut ++ u.hb.take s.cfg.headerNbytes, txCounter := u.txCounter } := by
  unfold buildHeader at h
  split at h
  · cases h
  · rename_i u hu
    split at h
    · cases h
    · rename_i v hv
      obtain ⟨hl, rfl⟩ := emitHeader_ok hv
      refine ⟨u, hu, hl, ?_⟩
      rw [formatBytes_frame hu] at h
      cases h
      simp [State.hbClear]

/-! ## The state machine -/

theorem startPayload_cases (count : BitVec 32) (s : State) :
    (count = 0#32 ∧ s.startPayload count = { s with fsm := .syncSearch })
      ∨ (count ≠ 0#32 ∧ s.startPayload count = { s with fsm := .haveHeader, payloadRemain := count }) := by
  unfold State.startPayload
  split
  · exact .inl ⟨‹_›, rfl⟩
  · exact .inr ⟨‹_›, rfl⟩

theorem payloadCount_ok {len : Half} {c : CfgRegs} {n : BitVec 32} (h : payloadCount len c = .ok n) :
    c.bps ≠ 0#4 ∧ n = BitVec.ofNat 32 (8 * len.toNat / c.bps.toNat) := by
  unfold payloadCount at h
  split at h
  · cases h
  · exact ⟨‹_›, by simpa using h.symm⟩

/-- A judged header is dropped, or delivers its record and starts its payload. -/
theorem judgeHeader_cases {s t : State} {e : Bool} (h : judgeHeader s = .ok (t, e)) :
    (e = false ∧ hdrOk s = .ok false ∧ t = (s.afterRead (hdrSpan s.cfg)).dropHeader)
      ∨ (e = true ∧ hdrOk s = .ok true ∧ ∃ len r n, hdrPayload s = .ok (len, r) ∧ payloadCount len s.cfg = .ok n
          ∧ t = ((s.afterRead (hdrSpan s.cfg)).deliver r).startPayload n) := by
  unfold judgeHeader at h
  split at h
  · cases h
  · cases h; exact .inl ⟨rfl, ‹_›, rfl⟩
  · split at h
    · cases h
    · split at h
      · cases h
      · cases h; exact .inr ⟨rfl, ‹_›, _, _, _, ‹_›, ‹_›, rfl⟩

theorem payloadBit_ok {s t : State} (h : payloadBit s = .ok t) :
    s.payloadRemain ≠ 0#32 ∧
      t = { s with
        payloadRemain := s.payloadRemain - 1
        fsm := if s.payloadRemain - 1 = 0#32 then .syncSearch else s.fsm } := by
  unfold payloadBit at h
  split at h
  · cases h
  · exact ⟨‹_›, by simpa using h.symm⟩

/-- A header bit is stored and counted; the one that fills the header is judged. -/
theorem headerBit_cases {b : Bool} {s t : State} {e : Bool} (h : headerBit b s = .ok (t, e)) :
    ∃ u, hrInsert b s = .ok u ∧
      ((u.hrLen.toNat = u.cfg.htgt ∧ judgeHeader u.skipBit = .ok (t, e))
        ∨ (u.hrLen.toNat ≠ u.cfg.htgt ∧ e = false ∧ t = u.skipBit)) := by
  unfold headerBit at h
  split at h
  · cases h
  · rename_i u hu
    refine ⟨u, hu, ?_⟩
    split at h
    · exact .inl ⟨‹_›, h⟩
    · cases h; exact .inr ⟨‹_›, rfl, rfl⟩

/-- A consumed bit is a search bit, a header bit or a payload bit, by the state in effect after the empty-code move. -/
theorem consumeBit_cases {b : Bool} {s t : State} {e : Bool} (h : consumeBit b s = .ok (t, e)) :
    ((emptyCodeMove s).fsm = .syncSearch ∧ e = false ∧ t = searchBit b (emptyCodeMove s))
      ∨ ((emptyCodeMove s).fsm = .haveSync ∧ headerBit b (emptyCodeMove s) = .ok (t, e))
      ∨ ((emptyCodeMove s).fsm = .haveHeader ∧ e = false ∧ payloadBit (emptyCodeMove s) = .ok t) := by
  unfold consumeBit consumeIn at h
  split at h
  · cases h; exact .inl ⟨‹_›, rfl, rfl⟩
  · exact .inr (.inl ⟨‹_›, h⟩)
  · split at h
    · cases h
    · cases h; exact .inr (.inr ⟨‹_›, rfl, ‹_›⟩)

/-- A push answers `OK` with the `emitted` flag of its bit. -/
theorem pushStream_next {b : Bool} {s t : State} (h : pushStream b s = .next t) :
    ∃ u e, consumeBit b s = .ok (u, e) ∧ t = u.respond .ok (flagWord e) := by
  unfold pushStream at h
  split at h
  · cases h
  · cases h; exact ⟨_, _, ‹_›, rfl⟩

/-! ## One step -/

theorem takeCommand_nil {s : State} (h : s.cmdIn = []) : s.takeCommand = none := by simp [State.takeCommand, h]

theorem takeCommand_cons {s : State} {c : Command} {rest : List Command} (h : s.cmdIn = c :: rest) :
    s.takeCommand = some (c, { s with cmdIn := rest }) := by simp [State.takeCommand, h]

end Sys2Proof.Machine
end

