-- ==== Sys2Proof/Laws/PerInstr.lean ====
section
/-! SUPPORT. Per instruction: the command word of every encoding is the row's of spec/opcode_table.json, its `match` under
its `mask`. -/

namespace Sys2Proof

/-- A row of spec/opcode_table.json: its `match` and its `mask`. -/
structure TableRow where
  bits : Half
  mask : Half
deriving DecidableEq, Repr

/-- The row of an instruction, as spec/opcode_table.json prints it; `none` for an internal primitive. -/
def tableRow : Instr → Option TableRow
  | .nop => some ⟨0x0000, 0xFFFF⟩
  | .reset => some ⟨0x0100, 0xFFFF⟩
  | .syncReset => some ⟨0x0200, 0xFFFF⟩
  | .cfgVariant _ => some ⟨0x1000, 0xFF00⟩
  | .cfgAccessCode _ _ => some ⟨0x1100, 0xFF00⟩
  | .cfgThreshold _ => some ⟨0x1200, 0xFF00⟩
  | .cfgBps _ => some ⟨0x1300, 0xFF00⟩
  | .cfgHdrUnits _ => some ⟨0x1400, 0xFFFF⟩
  | .cfgPayloadBps _ => some ⟨0x1500, 0xFF00⟩
  | .cfgOccLen _ => some ⟨0x1600, 0xFF00⟩
  | .cfgOccEntry _ _ => some ⟨0x1700, 0xFF00⟩
  | .pushBit _ => some ⟨0x2000, 0xFFFE⟩
  | .pushSoft _ => some ⟨0x2100, 0xFFFF⟩
  | .format _ => some ⟨0x3000, 0xFFFF⟩
  | .readReg _ => some ⟨0x4000, 0xFF00⟩
  | .hbAddField _ _ _ _ | .hbAddFieldBigEndian _ _ _ | .hbLength | .hrInsert _ | .hrExtract _ _
  | .hrExtractLsb _ _ | .hrClear | .corrStep _ | .slice _ | .crc8 _ | .crcOf _ _ | .defaultFormatBytes _
  | .defaultHdrOk | .defaultHdrPayload | .counterFormatBytes _ | .counterHdrOk | .counterHdrPayload
  | .crcFormatBytes _ | .crcHdrOk | .crcHdrPayload | .variableBitsFormatBytes _ | .variableBitsHdrOk
  | .variableBitsHdrPayload | .seq | .ofdmFormatBytes _ | .ofdmSymbols _ | .ofdmHdrOk | .ofdmHdrPayload
  | .consumeBit _ | .judgeHeader | .framingReset | .fail _ => none

namespace Laws.TableRow

/-- The encoding of `i` lies in the row of `i`, and an instruction with no encoding has no row (R85, R91). -/
def Statement (i : Instr) : Prop :=
  match encode i, tableRow i with
  | some c, some r => c.cw &&& r.mask = r.bits
  | none, none => True
  | _, _ => False

/-- Under the mask of the opcode byte a command word is its opcode byte. -/
theorem opcode_byte (op arg : Byte) : (op ++ arg : Half) &&& (0xFF#8 ++ 0x00#8) = op ++ 0x00#8 := by
  ext i hi
  simp only [BitVec.getElem_and, BitVec.getElem_append]
  split
  · simp
  · have : i - 8 < 8 := by omega
    simp only [BitVec.getElem_eq_testBit_toNat]
    interval_cases i <;> simp_all [Nat.testBit]

theorem nop : Statement .nop := by simp only [Statement, encode, tableRow]; decide
theorem reset : Statement .reset := by simp only [Statement, encode, tableRow]; decide
theorem syncReset : Statement .syncReset := by simp only [Statement, encode, tableRow]; decide
theorem cfgVariant (v : Byte) : Statement (.cfgVariant v) := opcode_byte _ v
theorem cfgAccessCode (n : Byte) (p : Word) : Statement (.cfgAccessCode n p) := opcode_byte _ n
theorem cfgThreshold (t : Byte) : Statement (.cfgThreshold t) := opcode_byte _ t
theorem cfgBps (b : Byte) : Statement (.cfgBps b) := opcode_byte _ b
theorem cfgHdrUnits (u : Word) : Statement (.cfgHdrUnits u) := by
  show ((0x14#8 ++ 0x00#8 : Half) &&& 0xFFFF#16) = 0x1400#16; decide
theorem cfgPayloadBps (p : Byte) : Statement (.cfgPayloadBps p) := opcode_byte _ p
theorem cfgOccLen (n : Byte) : Statement (.cfgOccLen n) := opcode_byte _ n
theorem cfgOccEntry (i : Byte) (c : Word) : Statement (.cfgOccEntry i c) := opcode_byte _ i
theorem pushBit (b : Bool) : Statement (.pushBit b) := by
  show ((0x20#8 ++ (0x00#7 ++ BitVec.ofBool b) : Half) &&& 0xFFFE#16) = 0x2000#16; cases b <;> decide
theorem pushSoft (x : BitVec 32) : Statement (.pushSoft x) := by
  show ((0x21#8 ++ 0x00#8 : Half) &&& 0xFFFF#16) = 0x2100#16; decide
theorem format (len : Word) : Statement (.format len) := by
  show ((0x30#8 ++ 0x00#8 : Half) &&& 0xFFFF#16) = 0x3000#16; decide
theorem readReg (r : Byte) : Statement (.readReg r) := opcode_byte _ r
theorem hbAddField (n : Overload) (w : Nat) (v : Word) (bs : Bool) : Statement (.hbAddField n w v bs) := trivial
theorem hbAddFieldBigEndian (n : Overload) (w : Nat) (v : Word) : Statement (.hbAddFieldBigEndian n w v) := trivial
theorem hbLength : Statement .hbLength := trivial
theorem hrInsert (b : Bool) : Statement (.hrInsert b) := trivial
theorem hrExtract (off w : Nat) : Statement (.hrExtract off w) := trivial
theorem hrExtractLsb (off w : Nat) : Statement (.hrExtractLsb off w) := trivial
theorem hrClear : Statement .hrClear := trivial
theorem corrStep (b : Bool) : Statement (.corrStep b) := trivial
theorem slice (x : BitVec 32) : Statement (.slice x) := trivial
theorem crc8 (bytes : List Byte) : Statement (.crc8 bytes) := trivial
theorem crcOf (l c : BitVec 12) : Statement (.crcOf l c) := trivial
theorem defaultFormatBytes (len : Word) : Statement (.defaultFormatBytes len) := trivial
theorem defaultHdrOk : Statement .defaultHdrOk := trivial
theorem defaultHdrPayload : Statement .defaultHdrPayload := trivial
theorem counterFormatBytes (len : Word) : Statement (.counterFormatBytes len) := trivial
theorem counterHdrOk : Statement .counterHdrOk := trivial
theorem counterHdrPayload : Statement .counterHdrPayload := trivial
theorem crcFormatBytes (len : Word) : Statement (.crcFormatBytes len) := trivial
theorem crcHdrOk : Statement .crcHdrOk := trivial
theorem crcHdrPayload : Statement .crcHdrPayload := trivial
theorem variableBitsFormatBytes (len : Word) : Statement (.variableBitsFormatBytes len) := trivial
theorem variableBitsHdrOk : Statement .variableBitsHdrOk := trivial
theorem variableBitsHdrPayload : Statement .variableBitsHdrPayload := trivial
theorem seq : Statement .seq := trivial
theorem ofdmFormatBytes (len : Word) : Statement (.ofdmFormatBytes len) := trivial
theorem ofdmSymbols (p : BitVec 32) : Statement (.ofdmSymbols p) := trivial
theorem ofdmHdrOk : Statement .ofdmHdrOk := trivial
theorem ofdmHdrPayload : Statement .ofdmHdrPayload := trivial
theorem consumeBit (b : Bool) : Statement (.consumeBit b) := trivial
theorem judgeHeader : Statement .judgeHeader := trivial
theorem framingReset : Statement .framingReset := trivial
theorem fail (st : Status) : Statement (.fail st) := trivial

end Laws.TableRow

end Sys2Proof
end

