-- ==== Sys2Proof/Tests/Slice0.lean ====
section
/-! SUPPORT. The model's own tests: well-formedness, the words of R85 written out bit by bit, one step of each instruction
against the vectors of spec/95_test_vectors.md and the examples of the rules, and for each statement with hypotheses a
witness that meets them. Every expected value is the spec's. -/

open Sys2Proof Sys2Proof.Machine

namespace Sys2Proof.Tests

set_option maxRecDepth 40000

/-! ## Helpers -/

/-- The state an outcome goes on with. -/
def after (o : Out) : Option State :=
  match o with
  | .next t => some t
  | .fault _ => none
  | .refused _ => none

theorem next_of_after {o : Out} (h : (after o).isSome = true) : ∃ t, o = .next t := by
  cases o with
  | next t => exact ⟨t, rfl⟩
  | fault _ => cases h
  | refused _ => cases h

/-- Small parameters of R8 with the default LFSR of R151. -/
def small : Params := ⟨32, 2, lfsrBits 256 0x6F#8⟩

theorem small_legal : small.Legal := ⟨by decide, by decide, by decide, by decide, by decide, by decide⟩

/-- Power-on with small parameters and an 8-bit access code 0xA5. -/
def base : State :=
  { State.powerOn small with cfg := { CfgRegs.reset small with acLen := 8, acPattern := 0xA5 }, nskip := 1 }

/-- A state with other configuration registers. -/
def withCfg (s : State) (c : CfgRegs) : State := { s with cfg := c }

/-- Power-on registers of a layout with `BPS` and `HDR_UNITS`. -/
def layout (v : Variant) (bps : BitVec 4) (units : Half) : State :=
  withCfg (State.powerOn small) { CfgRegs.reset small with variant := v, bps := bps, hdrUnits := units }

/-- A state whose header register holds these bits. -/
def holding (s : State) (bits : List Bool) : State :=
  { s with hrBits := bits ++ s.hrBits.drop bits.length, hrLen := BitVec.ofNat 14 bits.length }

/-- The stream bits of bytes, most significant first (R63). -/
def wire (bytes : List Byte) : List Bool := bytes.flatMap msbFirst

/-- A check that decides the invariant. -/
def invCheck (s : State) : Bool :=
  s.cfg.valid s.params && s.hrBits.length == s.params.hrCap
    && (s.fsm != .haveSync || decide (s.hrLen.toNat < s.cfg.htgt)) && (s.fsm == .haveSync || s.hrLen == 0)
    && (s.fsm != .haveHeader || s.payloadRemain != 0) && (s.fsm == .haveHeader || s.payloadRemain == 0)
    && (s.cfg.effL != 0 || s.dataReg == 0) && s.hb == [] && decide (s.lastErr.toNat ≤ 5)
    && (!s.fault || s.lastErr != 0)

theorem inv_of_check {s : State} (hp : s.params.Legal) (h : invCheck s = true) : s.Inv := by
  simp only [invCheck, Bool.and_eq_true, Bool.or_eq_true, beq_iff_eq, bne_iff_ne, decide_eq_true_eq,
    Bool.not_eq_true'] at h
  obtain ⟨⟨⟨⟨⟨⟨⟨⟨⟨h1, h2⟩, h3⟩, h4⟩, h5⟩, h6⟩, h7⟩, h8⟩, h9⟩, h10⟩ := h
  refine ⟨hp, h1, h2, ?_, ?_, ?_, ?_, ?_, h8, h9, ?_⟩ <;> intro hx <;> simp_all

theorem base_inv : base.Inv := inv_of_check small_legal (by decide)

/-! ## Well-formedness: one ill-formed term for each check -/

/-- R101: `w <= N/8`. -/
theorem test_wellFormed_field_width : (Instr.hbAddField .bits16 3 0 false).wellFormed = false := by decide

/-- R102, R101: `w <= N/8`. -/
theorem test_wellFormed_big_endian_field_width : (Instr.hbAddFieldBigEndian .bits8 2 0).wellFormed = false := by decide

/-- R111: `1 <= w`. -/
theorem test_wellFormed_extract_zero : (Instr.hrExtract 0 0).wellFormed = false := by decide

/-- R113: `w <= 64`. -/
theorem test_wellFormed_extract_lsb_long : (Instr.hrExtractLsb 0 65).wellFormed = false := by decide

/-- R11: `fail` takes a non-OK status. -/
theorem test_wellFormed_fail_ok : (Instr.fail .ok).wellFormed = false := by decide

/-! ## Decoding: the words of R85 and of the "Encoding" lines, bit by bit -/

theorem test_decode_nop : decode ⟨0b0000000000000000, 0x1234⟩ = .ok .nop := by decide
theorem test_decode_reset : decode ⟨0b0000000100000000, 0⟩ = .ok .reset := by decide
theorem test_decode_syncReset : decode ⟨0b0000001000000000, 0⟩ = .ok .syncReset := by decide
theorem test_decode_cfgVariant : decode ⟨0b0001000000000100, 0⟩ = .ok (.cfgVariant 4) := by decide
theorem test_decode_cfgAccessCode :
    decode ⟨0b0001000100010000, 0xAAAA⟩ = .ok (.cfgAccessCode 16 0xAAAA) := by decide
theorem test_decode_cfgThreshold : decode ⟨0b0001001000010001, 0⟩ = .ok (.cfgThreshold 17) := by decide
theorem test_decode_cfgBps : decode ⟨0b0001001100001001, 0⟩ = .ok (.cfgBps 9) := by decide
theorem test_decode_cfgHdrUnits : decode ⟨0b0001010000000000, 65⟩ = .ok (.cfgHdrUnits 65) := by decide
theorem test_decode_cfgPayloadBps : decode ⟨0b0001010100000010, 0⟩ = .ok (.cfgPayloadBps 2) := by decide
theorem test_decode_cfgOccLen : decode ⟨0b0001011001000001, 0⟩ = .ok (.cfgOccLen 65) := by decide
theorem test_decode_cfgOccEntry : decode ⟨0b0001011101000000, 1⟩ = .ok (.cfgOccEntry 64 1) := by decide
theorem test_decode_pushBit_0 : decode ⟨0b0010000000000000, 0⟩ = .ok (.pushBit false) := by decide
theorem test_decode_pushBit_1 : decode ⟨0b0010000000000001, 0⟩ = .ok (.pushBit true) := by decide
theorem test_decode_pushSoft :
    decode ⟨0b0010000100000000, 0xFFFFFFFFBF800000⟩ = .ok (.pushSoft 0xBF800000) := by decide
theorem test_decode_format : decode ⟨0b0011000000000000, 4800⟩ = .ok (.format 4800) := by decide
theorem test_decode_readReg : decode ⟨0b0100000000010010, 0⟩ = .ok (.readReg 0x12) := by decide

/-- 95, 2.10: `ARG = 2` and `0x80` of `PUSH_BIT`. -/
theorem test_decode_pushBit_reserved :
    decode ⟨0x2002, 0⟩ = .error (.reservedArg 0x20 0x02) ∧ decode ⟨0x2080, 0⟩ = .error (.reservedArg 0x20 0x80) := by
  decide

/-- 95, 2.10: `ARG = 1` where it must be 0x00. -/
theorem test_decode_zero_arg_reserved :
    [0x0001, 0x0101, 0x0201, 0x1401, 0x2101, 0x3001].map (fun cw : Half => (decode ⟨cw, 5⟩).isOk) =
      [false, false, false, false, false, false] := by decide

/-- 95, 2.10: unassigned opcodes. -/
theorem test_decode_unassigned :
    [0x0300, 0x1800, 0x2200, 0x3100, 0x4100, 0xFF00].map (fun cw : Half => (decode ⟨cw, 0⟩).isOk) =
      [false, false, false, false, false, false] := by decide

/-- R91: an internal primitive has no encoding and no word. -/
theorem test_decode_internal : encode .hrClear = none ∧ decodeTableWord 0 0 = none := by decide

/-- `CW` in the low 16 bits, then `DATA`: the model's layout (log entry 19); the words are E1's. -/
theorem test_decodeTableWord : decodeTableWord 16 0x1110 = some (.cfgAccessCode 16 0)
    ∧ decodeTableWord 80 0xAAAA1110 = some (.cfgAccessCode 16 0xAAAA) := by decide

/-! ## One step of each instruction -/

/-- R206, R47: `NOP` answers `(OK, 0)` even when `FAULT = 1`. -/
theorem test_nop : (after (exec .nop { base with fault := true })).map (·.respOut) = some [⟨.ok, 0⟩] := by decide

/-- R203: after a refused write, `RESET` clears `FAULT`, `LAST_ERR` and the registers. -/
theorem test_reset : (after (exec .reset { base with fault := true, lastErr := 2, txCounter := 9 })).map
    (fun t => (t.fault, t.lastErr, t.txCounter, t.cfg.acLen, t.cfg.hdrUnits)) = some (false, 0, 0, 0, 32) := by decide

/-- R204's example: `HaveHeader` with `PAYLOAD_REMAIN = 80`. -/
theorem test_syncReset : (after (exec .syncReset { base with fsm := .haveHeader, payloadRemain := 80 })).map
    (fun t => (t.fsm, t.payloadRemain, t.cfg.acLen)) = some (.syncSearch, 0, 8) := by decide

/-- 95, 2.10: `CFG_VARIANT 5` answers `(2, 0)` and ERR is 0x201. -/
theorem test_cfgVariant_refused : (after (exec (.cfgVariant 5) base)).map
    (fun t => (t.respOut, errWord t.fault t.lastErr)) = some ([⟨.cfgErr, 0⟩], 0x201) := by decide

/-- R191's example: `CFG_VARIANT 2` gives a 32-bit header. -/
theorem test_cfgVariant : (after (exec (.cfgVariant 2) base)).map
    (fun t => (t.cfg.variant, t.cfg.headerNbits)) = some (.crc, 32) := by decide

/-- R192's example. -/
theorem test_cfgAccessCode : (after (exec (.cfgAccessCode 16 0xAAAA) base)).map
    (fun t => (t.cfg.acLen, t.cfg.acPattern, t.nskip)) = some (16, 0xAAAA, 0) := by decide

/-- R192's example: a pattern bit at or above the length. -/
theorem test_cfgAccessCode_refused : (after (exec (.cfgAccessCode 8 0x1AA) base)).map
    (fun t => (t.cfg.acPattern, t.nskip, t.fault)) = some (0xA5, 1, true) := by decide

/-- R193's example with `AC_LEN = 8`: a threshold above the length is refused. -/
theorem test_cfgThreshold : (after (exec (.cfgThreshold 9) base)).map (fun t => t.fault) = some true
    ∧ (after (exec (.cfgThreshold 8) base)).map (fun t => t.cfg.threshold) = some 8 := by decide

/-- R194's example: in VariableBits with `HDR_UNITS = 8`, `CFG_BPS 3` is refused. -/
theorem test_cfgBps : (after (exec (.cfgBps 3) (layout .variableBits 4 8))).map (fun t => t.fault) = some true
    ∧ (after (exec (.cfgBps 8) base)).map (fun t => t.cfg.bps) = some 8 := by decide

/-- R195's example; `u` is compared as a 64-bit value. -/
theorem test_cfgHdrUnits : (after (exec (.cfgHdrUnits 5) base)).map (fun t => t.cfg.hdrUnits) = some 5
    ∧ (after (exec (.cfgHdrUnits 0x10005) base)).map (fun t => t.fault) = some true := by decide

/-- R196's example. -/
theorem test_cfgPayloadBps : (after (exec (.cfgPayloadBps 2) base)).map (fun t => t.cfg.payloadBps) = some 2
    ∧ (after (exec (.cfgPayloadBps 9) base)).map (fun t => t.fault) = some true := by decide

/-- R197's example. -/
theorem test_cfgOccLen : (after (exec (.cfgOccLen 2) base)).map (fun t => t.cfg.occLen) = some 2
    ∧ (after (exec (.cfgOccLen 0) base)).map (fun t => t.fault) = some true := by decide

/-- R198's examples. -/
theorem test_cfgOccEntry : (after (exec (.cfgOccEntry 0 48) base)).map (fun t => t.cfg.occ) = some [48, 0]
    ∧ (after (exec (.cfgOccEntry 0 0) (layout .ofdm 1 32))).map (fun t => t.fault) = some true := by decide

/-- 95, 2.3, row 4 of the table: code `0b0000`, the first bit matches. -/
theorem test_pushBit_match :
    (after (exec (.pushBit false) (withCfg (State.powerOn small) { CfgRegs.reset small with acLen := 4 }))).map
      (fun t => (t.fsm, t.dataReg, t.nskip)) = some (.haveSync, 0, 1) := by decide

/-- 95, E3, last row: the 32nd bit of `00 64 00 64` with an empty code. -/
theorem test_pushBit_record :
    (after (exec (.pushBit false)
        { holding (State.powerOn small) ((wire [0x00, 0x64, 0x00, 0x64]).take 31) with fsm := .haveSync, nskip := 31 })).map
      (fun t => (t.fsm, t.payloadRemain, t.recOut, t.respOut)) =
    some (.haveHeader, 800, [⟨.default, 800, 32, 100, 0, 0, 0⟩], [⟨.ok, 1⟩]) := by decide

/-- R178's example: -1.0 pushes 0, and 0.5 pushes 1. -/
theorem test_pushSoft : (after (exec (.pushSoft 0xBF800000) { base with dataReg := 3 })).map (·.dataReg) = some 6
    ∧ (after (exec (.pushSoft 0x3F000000) { base with dataReg := 3 })).map (·.dataReg) = some 7 := by decide

/-- R146's second example: the CRC layout with `TX_COUNTER = 4095`, `L = 5000`. -/
theorem test_format_crc : (after (exec (.format 5000) { layout .crc 1 32 with txCounter := 4095 })).map
    (fun t => (t.hdrOut, t.txCounter, t.respOut)) = some ([0xFF, 0xF3, 0x88, 0x17], 0, [⟨.ok, 4⟩]) := by decide

/-- R154's first example: OFDM, `BPS = 8`, `HDR_UNITS = 5`, `L = 100`. -/
theorem test_format_ofdm : (after (exec (.format 100) (layout .ofdm 8 5))).map
    (fun t => (t.hdrOut, t.txCounter)) = some ([0x0B, 0x56, 0x3F, 0x08, 0x7F], 1) := by decide

/-- R205's example: `HDR_UNITS` after reset, and number 0x12. -/
theorem test_readReg : (after (exec (.readReg 0x07) base)).map (·.respOut) = some [⟨.ok, 32⟩]
    ∧ (after (exec (.readReg 0x12) base)).map (·.respOut) = some [⟨.illegal, 0⟩] := by decide

/-- R48: the earliest bit at the most significant end. -/
theorem test_readReg_hrWord :
    (after (exec (.readReg 0x80) (holding base (wire [0x80, 0, 0, 0, 0, 0, 0, 0x01])))).map (·.respOut) =
      some [⟨.ok, 0x8000000000000001⟩] := by decide

/-- 95, 2.1, row 7 and row 6. -/
theorem test_hbAddField : (after (exec (.hbAddField .bits16 2 0x12345 false) base)).map (·.hb) = some [0x23, 0x45]
    ∧ (after (exec (.hbAddField .bits16 1 0x01FF false) base)).map (·.hb) = some [0xFF] := by decide

/-- 95, 2.1, rows 8 and 9. -/
theorem test_hbAddFieldBigEndian :
    (after (exec (.hbAddFieldBigEndian .bits16 2 0x1234) base)).map (·.hb) = some [0x34, 0x12]
      ∧ (after (exec (.hbAddFieldBigEndian .bits8 1 0x5A) base)).map (·.hb) = some [0x5A] := by decide

/-- R104. -/
theorem test_hbLength : (after (exec .hbLength { base with hb := [1, 2, 3] })).map (·.ret) = some (.word 3) := by
  decide

/-- R110's example. -/
theorem test_hrInsert : (after (exec (.hrInsert true) (holding base [false, false, false]))).map
    (fun t => (t.hrBits[3]?, t.hrLen)) = some (some true, 4) := by decide

/-- 95, 2.2: cells `0,0,1,0,0,1,1,0,0,0,0,0`. -/
theorem test_hrExtract :
    (after (exec (.hrExtract 0 12) (holding base
      [false, false, true, false, false, true, true, false, false, false, false, false]))).map (·.ret) =
        some (.word 0x260) := by decide

/-- R113's example. -/
theorem test_hrExtractLsb :
    (after (exec (.hrExtractLsb 0 12) (holding base
      [false, false, true, false, false, true, true, false, false, false, false, false]))).map (·.ret) =
        some (.word 100) := by decide

/-- R114's example. -/
theorem test_hrClear : (after (exec .hrClear { base with hrLen := 32 })).map (·.hrLen) = some 0 := by decide

/-- R120's example: `1,0,0` then `1`, `THRESHOLD = 1`. -/
theorem test_corrStep :
    (after (exec (.corrStep true) { withCfg base { base.cfg with acLen := 4, acPattern := 0b1011, threshold := 1 } with
        dataReg := 0b100 })).map (fun t => (t.dataReg, t.ret)) = some (0b1001, .bit true) := by decide

/-- 95, 2.3, the table of `Slice`: -0.0, negative subnormal, -inf, a negative quiet NaN. -/
theorem test_slice : [0x80000000, 0x80000001, 0xFF800000, 0xFFC00000].map (fun x : BitVec 32 =>
    (after (exec (.slice x) base)).map (·.ret)) =
      [some (.bit true), some (.bit false), some (.bit false), some (.bit true)] := by decide

/-- R131's example: "123456789" in ASCII. -/
theorem test_crc8 : (after (exec (.crc8 [0x31, 0x32, 0x33, 0x34, 0x35, 0x36, 0x37, 0x38, 0x39]) base)).map (·.ret) =
    some (.word 0xFB) := by decide

/-- 95, 2.4: `crc_of(0x123, 0x456) = 0x20`. -/
theorem test_crcOf : (after (exec (.crcOf 0x123 0x456) base)).map (·.ret) = some (.word 0x20) := by decide

/-- R140's example. -/
theorem test_defaultFormatBytes :
    (after (exec (.defaultFormatBytes 4800) (withCfg base { base.cfg with acLen := 16, acPattern := 0xAAAA }))).map (·.hb) =
      some [0xAA, 0xAA, 0x12, 0xC0, 0x12, 0xC0] := by decide

/-- R141's examples. -/
theorem test_defaultHdrOk :
    (after (exec .defaultHdrOk (holding base (wire [0x00, 0x64, 0x00, 0x64])))).map (·.ret) = some (.bit true)
      ∧ (after (exec .defaultHdrOk (holding base (wire [0x00, 0x64, 0x00, 0x65])))).map (·.ret) = some (.bit false) := by
  decide

/-- R142's example. -/
theorem test_defaultHdrPayload :
    (after (exec .defaultHdrPayload (holding base (wire [0x00, 0x64, 0x00, 0x64])))).map (·.ret) =
      some (.payload 100 ⟨.default, 800, 0, 100, 0, 0, 0⟩) := by decide

/-- 95, 2.5: Counter, code 16, `BPS 2`, `TX_COUNTER = 0xFFFF`, wrapping to 0. -/
theorem test_counterFormatBytes :
    (after (exec (.counterFormatBytes 65535) { withCfg base
        { base.cfg with variant := .counter, acLen := 16, acPattern := 0xAAAA, bps := 2 } with txCounter := 0xFFFF })).map
      (fun t => (t.hb, t.txCounter)) =
        some ([0xAA, 0xAA, 0xFF, 0xFF, 0xFF, 0xFF, 0x00, 0x02, 0xFF, 0xFF], 0) := by decide

/-- 95, 2.8, row 4: a Counter header with its bps field flipped is accepted. -/
theorem test_counterHdrOk :
    (after (exec .counterHdrOk (holding base (wire [0, 2, 0, 2, 0, 0, 0, 0])))).map (·.ret) = some (.bit true) := by
  decide

/-- 95, 2.8, row 1. -/
theorem test_counterHdrPayload :
    (after (exec .counterHdrPayload (holding base (wire [0, 0x64, 0, 0x64, 0, 2, 0, 5])))).map (·.ret) =
      some (.payload 100 ⟨.counter, 800, 0, 100, 2, 5, 0⟩) := by decide

/-- R146's first example. -/
theorem test_crcFormatBytes : (after (exec (.crcFormatBytes 100) base)).map (fun t => (t.hb, t.txCounter)) =
    some ([0x00, 0x00, 0x64, 0xDC], 1) := by decide

/-- R147's examples. -/
theorem test_crcHdrOk :
    (after (exec .crcHdrOk (holding base (wire [0x00, 0x00, 0x64, 0xDC])))).map (·.ret) = some (.bit true)
      ∧ (after (exec .crcHdrOk (holding base (wire [0x00, 0x00, 0x64, 0xDD])))).map (·.ret) = some (.bit false) := by
  decide

/-- 95, 2.8: `FF F3 88 17`. -/
theorem test_crcHdrPayload :
    (after (exec .crcHdrPayload (holding base (wire [0xFF, 0xF3, 0x88, 0x17])))).map (·.ret) =
      some (.payload 904 ⟨.crc, 7232, 0, 904, 0, 4095, 0⟩) := by decide

/-- 95, 2.5: VB, `BPS 3`, `HDR_UNITS 11`, `L = TX_COUNTER = 4095`. -/
theorem test_variableBitsFormatBytes :
    (after (exec (.variableBitsFormatBytes 4095) { layout .variableBits 3 11 with txCounter := 4095 })).map
      (fun t => (t.hb, t.txCounter)) = some ([7, 7, 7, 7, 7, 7, 7, 7, 5, 7, 2], 0) := by decide

/-- Log entry 21: run alone with `HDR_UNITS = 4` at `BPS 8`, below `min_units(8) = 5`: the five field units, no fill. -/
theorem test_variableBitsFormatBytes_short :
    (after (exec (.variableBitsFormatBytes 100) (layout .default 8 4))).map (·.hb) = some [0x64, 0, 0, 0, 0xDC] := by
  decide

/-- 95, 2.8, rejections: `04 03 00 00 00 00 1C 06` at `BPS 5` with its padding bit 12 flipped is accepted, with its
length bit 0 flipped rejected. -/
theorem test_variableBitsHdrOk :
    let bits := [0x04, 0x03, 0x00, 0x00, 0x00, 0x00, 0x1C, 0x06].flatMap (unitBits 5)
    (after (exec .variableBitsHdrOk (holding (layout .variableBits 5 8) (bits.set 12 true)))).map (·.ret) =
        some (.bit true)
      ∧ (after (exec .variableBitsHdrOk (holding (layout .variableBits 5 8) (bits.set 0 true)))).map (·.ret) =
        some (.bit false) := by decide

/-- 95, 2.8: VB, `BPS 3`, units 11. -/
theorem test_variableBitsHdrPayload :
    (after (exec .variableBitsHdrPayload (holding (layout .variableBits 3 11)
      ([7, 7, 7, 7, 7, 7, 7, 7, 5, 7, 2].flatMap (unitBits 3))))).map (·.ret) =
        some (.payload 4095 ⟨.variableBits, 32760, 0, 4095, 0, 4095, 0⟩) := by decide

/-- R151's first 64 bits. -/
theorem test_seq : (after (exec .seq base)).map (fun t => match t.ret with
    | .bits l => (l.take 64).foldl (fun v b => 2 * v + b.toNat) 0
    | _ => 0) = some 0b1111011001101010111111000001000011000101001111010001110010010110 := by decide

/-- 95, 2.5: OFDM, `BPS 4`, `HDR_UNITS 8`, `L = 0`. -/
theorem test_ofdmFormatBytes : (after (exec (.ofdmFormatBytes 0) (layout .ofdm 4 8))).map (·.hb) =
    some [0x0F, 0x06, 0x06, 0x05, 0x0F, 0x03, 0x09, 0x0D] := by decide

/-- R155's examples: `OCC = [48]` at 2 bits, and `[4, 8]`. -/
theorem test_ofdmSymbols :
    (after (exec (.ofdmSymbols 800) (withCfg base { base.cfg with occ := [48, 0], payloadBps := 2 }))).map (·.ret) =
        some (.word 9)
      ∧ (after (exec (.ofdmSymbols 16) (withCfg base { base.cfg with occ := [4, 8], occLen := 2 }))).map (·.ret) =
        some (.word 3) := by decide

/-- 95, 2.8: `0B 56 3F 08 7F` at `BPS 8` is valid, and the unscrambled header is not. -/
theorem test_ofdmHdrOk :
    (after (exec .ofdmHdrOk (holding (layout .ofdm 8 5) ([0x0B, 0x56, 0x3F, 0x08, 0x7F].flatMap (unitBits 8))))).map
        (·.ret) = some (.bit true)
      ∧ (after (exec .ofdmHdrOk (holding (layout .ofdm 8 5) ([0x64, 0x00, 0x00, 0x00, 0xDC].flatMap (unitBits 8))))).map
        (·.ret) = some (.bit false) := by decide

/-- 95, P5: one in-use entry of 48 carriers at 2 bits gives 9 symbols. -/
theorem test_ofdmHdrPayload :
    (after (exec .ofdmHdrPayload (holding (withCfg (State.powerOn small) { CfgRegs.reset small with
        variant := .ofdm, bps := 2, hdrUnits := 16, payloadBps := 2, occ := [48, 0] })
      ([3, 2, 0, 0, 2, 1, 1, 1, 3, 3, 3, 0, 0, 1, 1, 3].flatMap (unitBits 2))))).map (·.ret) =
        some (.payload 100 ⟨.ofdm, 800, 0, 100, 0, 0, 9⟩) := by decide

/-- R174: the last payload bit. -/
theorem test_consumeBit : (after (exec (.consumeBit true) { base with fsm := .haveHeader, payloadRemain := 1 })).map
    (fun t => (t.fsm, t.payloadRemain, t.nskip, t.ret)) = some (.syncSearch, 0, 1, .bit false) := by decide

/-- 95, F1: a header whose length copies differ: no record, and `NSKIP` is kept. -/
theorem test_judgeHeader :
    (after (exec .judgeHeader { holding base (wire [0x00, 0x64, 0x00, 0x65]) with fsm := .haveSync, nskip := 48 })).map
      (fun t => (t.fsm, t.hrLen, t.nskip, t.recOut, t.ret)) = some (.syncSearch, 0, 48, [], .bit false) := by decide

/-- 95, 2.8, row 1 and its last rejection: the layout of `VARIANT` judges and reads the header, Counter with its own fields,
and OFDM refuses what VariableBits accepts. -/
theorem test_judgeHeader_layouts :
    (after (exec .judgeHeader { holding (layout .counter 2 32) (wire [0, 0x64, 0, 0x64, 0, 2, 0, 5]) with
        fsm := .haveSync, nskip := 80 })).map (fun t => (t.recOut, t.payloadRemain)) =
      some ([⟨.counter, 800, 80, 100, 2, 5, 0⟩], 400)
    ∧ [Variant.variableBits, .ofdm].map (fun v => (after (exec .judgeHeader
        (holding (layout v 8 5) ([0x64, 0x00, 0x00, 0x00, 0xDC].flatMap (unitBits 8))))).map (·.ret)) =
      [some (.bit true), some (.bit false)] := by
  decide

/-- R241. -/
theorem test_framingReset : (after (exec .framingReset
    { base with fsm := .haveSync, dataReg := 0xAAAA, hrLen := 4, nskip := 20, txCounter := 3 })).map (fun t => (t.fsm, t.dataReg, t.hrLen, t.nskip, t.txCounter)) =
      some (.syncSearch, 0, 0, 0, 3) := by decide

/-- R222. -/
theorem test_fail : (after (exec (.fail .cfgErr) base)).map (fun t => (t.fault, t.lastErr, t.respOut)) =
    some (true, 2, [⟨.cfgErr, 0⟩]) := by decide

/-- 95, 2.10, fault and priority: `ILLEGAL` comes before `BLOCKED`. -/
theorem test_step_illegal_before_blocked :
    (after (step { base with fault := true, lastErr := 2, cmdIn := [⟨0x9900, 0⟩] })).map
        (fun t => (t.fault, t.lastErr, t.respOut)) = some (true, 1, [⟨.illegal, 0⟩])
      ∧ (after (step { base with fault := true, lastErr := 2, cmdIn := [⟨0x2001, 0⟩] })).map
        (fun t => (t.fault, t.lastErr, t.respOut)) = some (true, 3, [⟨.blocked, 0⟩]) := by decide

/-- The host's presentation of a word: the very next step runs it. -/
theorem test_withFetchWord :
    (after (step (State.reset.withFetchWord 16 0x1002))).map (fun t => (t.cfg.variant, t.cmdIn)) = some (.crc, []) := by
  decide

/-- R45: the keys of an OFDM record. -/
theorem test_dictionary : (Record.mk .ofdm 800 32 100 0 0 9).dictionary =
    [("payload bits", 800), ("skip samps", 32), ("packet length", 100), ("counter", 0), ("ofdm symbols", 9)] := by decide

/-- E1, R90: `SET_ACCESS_CODE "1010101010101010"`. -/
theorem test_assemble_code : Asm.assembleLine "SET_ACCESS_CODE \"1010101010101010\" ; E1" = some [⟨0x1110, 0xAAAA⟩] := by
  decide

/-- 95, P4: -0.25 as binary32. -/
theorem test_assemble_soft : Asm.assembleLine "PARSE_SOFT -0.25, 0.5" = some [⟨0x2100, 0xBE800000⟩, ⟨0x2100, 0x3F000000⟩] := by
  decide

/-- R90: any other character in the string is refused, white space and separators too. -/
theorem test_assemble_code_refused :
    ["SET_ACCESS_CODE \"10 10\"", "SET_ACCESS_CODE \" 1010\"", "SET_ACCESS_CODE \"10,10\"", "SET_ACCESS_CODE \"10;10\"",
      "SET_ACCESS_CODE \"1012\""].map Asm.assembleLine = [none, none, none, none, none] := by
  decide

/-- Log entry 14: an empty operand slot and a float without a digit on each side of its point are refused. -/
theorem test_assemble_missing_refused :
    ["CFG_BPS ,3", "CFG_BPS 3,", "CFG_ACCESS_CODE 16,,0xAAAA", "PUSH_BYTES", "PUSH_SOFT .5", "PUSH_SOFT -.5",
      "PUSH_SOFT 5."].map Asm.assembleLine = [none, none, none, none, none, none, none] := by
  decide

/-- Log entry 14: a character other than '0' and '1' in a `PUSH_BITS` or `PARSE` string. -/
theorem test_assemble_bits_refused :
    ["PUSH_BITS \"102\"", "PARSE \"1 0\""].map Asm.assembleLine = [none, none] := by
  decide

/-- R88, log entry 20: an integer is decimal or `0x` hexadecimal; bare `AA` is refused and bare `64` is sixty-four. -/
theorem test_assemble_bytes :
    Asm.assembleLine "PUSH_BYTES 64" = Asm.assembleLine "PUSH_BYTES 0x40"
      ∧ Asm.assembleLine "PUSH_BYTES 64" = some (Asm.pushBytes [0x40])
      ∧ Asm.assembleLine "PUSH_BYTES AA" = none := by
  decide

/-- R47, log entry 14: the index of a register name is decimal. -/
theorem test_assemble_register_index : Asm.assembleLine "READ_REG OCC[3]" = some [⟨0x4043, 0⟩]
    ∧ Asm.assembleLine "READ_REG OCC[0x3]" = none := by
  decide

/-- R89: `PUSH_UNITS b; u0, u1` pushes each unit's bit 0 first; its first `;` starts no comment. -/
theorem test_assemble_units : Asm.assembleLine "PUSH_UNITS 2; 1, 2 ; two units" =
    some [⟨0x2001, 0⟩, ⟨0x2000, 0⟩, ⟨0x2000, 0⟩, ⟨0x2001, 0⟩] := by
  decide

/-! ## Witnesses: for each statement with hypotheses, states and operands that meet them, clause by clause -/

/-- A state with one command on the port. -/
def offered (c : Command) : State := { base with cmdIn := [c] }

/-- A state within the invariant in `HaveSync`, one bit short of a Default header. -/
def collecting : State :=
  { holding base ((wire [0x00, 0x64, 0x00, 0x64]).take 31) with fsm := .haveSync, dataReg := 0xA5, nskip := 39 }

/-- A state within the invariant in `HaveHeader`, on its last payload bit. -/
def counting : State := { base with fsm := .haveHeader, payloadRemain := 1 }

/-- A state within the invariant of the CRC layout, which has no access code. -/
def uncoded : State := { layout .crc 1 32 with txCounter := 4095 }

theorem collecting_inv : collecting.Inv := inv_of_check small_legal (by decide)
theorem counting_inv : counting.Inv := inv_of_check small_legal (by decide)
theorem uncoded_inv : uncoded.Inv := inv_of_check small_legal (by decide)

/-- Exactly these bits are held. -/
theorem holds_of {s : State} {bits : List Bool} (h1 : s.hrLen.toNat = bits.length)
    (h2 : (s.hrBits.take bits.length == bits) = true) : s.HrHolds bits := ⟨h1, by simpa using h2⟩

theorem witness_StepRunsTheDecodedCommand :
    (∃ (s : State) (c : Command) (rest : List Command) (i : Instr), s.cmdIn = c :: rest ∧ decode c = .ok i)
      ∧ ∃ s : State, s.cmdIn = [] :=
  ⟨⟨offered ⟨0x2001, 0⟩, _, _, .pushBit true, rfl, by decide⟩, base, rfl⟩

theorem witness_IllegalWordAnswersIllegal :
    (∃ (s : State) (c : Command) (rest : List Command) (e : DecodeError), s.cmdIn = c :: rest ∧ decode c = .error e)
      ∧ decode ⟨0x2002, 0⟩ = .error (.reservedArg 0x20 0x02) :=
  ⟨⟨offered ⟨0x9900, 0⟩, _, _, .unassignedOpcode 0x99, rfl, by decide⟩, by decide⟩

theorem witness_EncodedCommandDecodesToItself : (Instr.readReg 0xFF).isCommand = true := by decide

theorem witness_DecodedCommandEncodesToItsWord : ∃ (c : Command) (i : Instr), decode c = .ok i :=
  ⟨⟨0x2100, 0xFFFFFFFF00000000⟩, .pushSoft 0, by decide⟩

theorem witness_EveryCommandGetsExactlyOneResponse :
    ∃ (s t : State) (c : Command) (rest : List Command), s.cmdIn = c :: rest ∧ step s = .next t := by
  obtain ⟨t, h⟩ := next_of_after (show (after (step (offered ⟨0x2002, 0⟩))).isSome = true by decide)
  exact ⟨_, t, _, _, rfl, h⟩

theorem witness_PowerOnMeetsTheInvariant :
    small.Legal ∧ (Params.mk 1024 64 (List.replicate 8192 true)).Legal :=
  ⟨small_legal, ⟨by decide, by decide, by decide, by decide, by decide, by simp⟩⟩

theorem witness_EveryStepKeepsTheInvariant : ∃ s t : State, s.Inv ∧ step s = .next t := by
  obtain ⟨t, h⟩ := next_of_after (show (after (step (offered ⟨0x1102, 0x3⟩))).isSome = true by decide)
  exact ⟨offered ⟨0x1102, 0x3⟩, t, inv_of_check small_legal (by decide), h⟩

theorem witness_EveryStepGoesOnWithinTheInvariant : ∃ s : State, s.Inv ∧ s.cmdIn ≠ [] :=
  ⟨{ collecting with cmdIn := [⟨0x2000, 0⟩] }, inv_of_check small_legal (by decide), by decide⟩

theorem witness_ConfigurationStaysValid : ∃ (i : Instr) (s t : State), i.isCommand = true ∧ s.params.Legal ∧
    s.cfg.valid s.params = true ∧ exec i s = .next t := by
  obtain ⟨t, h⟩ := next_of_after (show (after (exec (.cfgThreshold 8) base)).isSome = true by decide)
  exact ⟨_, base, t, by decide, small_legal, by decide, h⟩

theorem witness_MinUnitsAndShortestHeader :
    ∃ (p : Params) (c : CfgRegs), c.valid p = true ∧ p.Legal ∧ c.variant = .variableBits :=
  ⟨small, (layout .variableBits 8 5).cfg, by decide, small_legal, by decide⟩

theorem witness_NopAndSyncResetEffects : collecting.fault = false := by decide

theorem witness_ReadRegOfNumberedRegistersAndEntries :
    ((0x00, 0) ∈ base.numbered ∧ (0x11, 8) ∈ base.numbered)
      ∧ base.params.Legal ∧ (0 < base.params.occMax ∧ base.cfg.occ[0]? = some 1)
      ∧ (1 < base.params.occMax ∧ base.cfg.occ[1]? = some 0) :=
  ⟨by decide, small_legal, by decide, by decide⟩

theorem witness_ReadRegOfHeaderWords : collecting.params.Legal ∧ collecting.hrBits.length = collecting.params.hrCap
    ∧ 0 < collecting.params.hrCap / 64 ∧ 3 < collecting.params.hrCap / 64 ∧ 64 * 0 + 30 < collecting.hrLen.toNat :=
  ⟨small_legal, by decide, by decide, by decide, by decide⟩

/-- The last word of a full register: no free draw. -/
theorem witness_ReadRegOfHeaderWords_full :
    64 * 3 + 64 ≤ (holding base (List.replicate 256 true)).hrLen.toNat
      ∧ (holding base (List.replicate 256 true)).hrBits.length = base.params.hrCap := by decide

theorem witness_ReadRegOfUnassignedNumbers : base.params.Legal
    ∧ (0x12 ≤ (0x12 : Byte).toNat ∧ (0x12 : Byte).toNat < 0x40) ∧ (0x12 ≤ (0x3F : Byte).toNat ∧ (0x3F : Byte).toNat < 0x40)
    ∧ (0x40 + base.params.occMax ≤ (0x42 : Byte).toNat ∧ (0x42 : Byte).toNat < 0x80)
    ∧ (0x40 + base.params.occMax ≤ (0x7F : Byte).toNat ∧ (0x7F : Byte).toNat < 0x80)
    ∧ 0x80 + base.params.hrCap / 64 ≤ (0x84 : Byte).toNat ∧ 0x80 + base.params.hrCap / 64 ≤ (0xFF : Byte).toNat :=
  ⟨small_legal, by decide, by decide, by decide, by decide, by decide, by decide⟩

/-- The premises the eight configuration statements share. -/
theorem witness_configuration : base.params.Legal ∧ base.cfg.valid base.params = true ∧ base.fault = false
    ∧ (layout .ofdm 8 5).cfg.valid small = true ∧ (layout .variableBits 4 8).cfg.valid small = true :=
  ⟨small_legal, by decide, by decide, by decide, by decide⟩

theorem inUse_first (v : Half) (l : List Half) (n : Nat) (hn : 0 < n) (hv : v ≠ 0#16) : InUse (v :: l) n :=
  ⟨0, hn, v, rfl, hv⟩

theorem witness_CfgVariantChecksAndEffect :
    (Variant.default.code.toNat = (0 : Byte).toNat ∧ (3 ≤ (0 : Byte).toNat → False) ∧ ((0 : Byte).toNat = 4 → False))
      ∧ (Variant.ofdm.code.toNat = (4 : Byte).toNat ∧ minUnits base.cfg.bps.toNat ≤ base.cfg.hdrUnits.toNat
          ∧ InUse base.cfg.occ base.cfg.occLen.toNat)
      ∧ 4 < (5 : Byte).toNat
      ∧ (3 ≤ (3 : Byte).toNat ∧ (layout .crc 1 31).cfg.hdrUnits.toNat < minUnits (layout .crc 1 31).cfg.bps.toNat
          ∧ (layout .crc 1 31).cfg.valid small = true)
      ∧ ¬ InUse (0 :: 5 :: []) 1 := by
  refine ⟨by decide, ⟨by decide, by decide, inUse_first _ _ _ (by decide) (by decide)⟩, by decide, by decide, ?_⟩
  rintro ⟨i, hi, v, hv, hne⟩
  obtain rfl : i = 0 := by omega
  simp_all

theorem witness_CfgAccessCodeChecksAndEffect :
    ((64 : Byte).toNat ≤ 64 ∧ (0xFFFFFFFFFFFFFFFF : Word).toNat < 2 ^ (64 : Byte).toNat
        ∧ base.cfg.threshold.toNat ≤ (64 : Byte).toNat)
      ∧ ¬ (65 : Byte).toNat ≤ 64 ∧ ¬ (0x100 : Word).toNat < 2 ^ (8 : Byte).toNat := by decide

theorem witness_CfgThresholdChecksAndEffect :
    (8 : Byte).toNat ≤ base.cfg.acLen.toNat ∧ ¬ (9 : Byte).toNat ≤ base.cfg.acLen.toNat := by decide

theorem witness_CfgBpsChecksAndEffect :
    (layout .variableBits 4 8).cfg.variant.usesUnits = true
      ∧ minUnits 4 ≤ (layout .variableBits 4 8).cfg.hdrUnits.toNat
      ∧ ¬ minUnits 3 ≤ (layout .variableBits 4 8).cfg.hdrUnits.toNat := by decide

theorem witness_CfgHdrUnitsChecksAndEffect :
    (1 ≤ (32 : Word).toNat ∧ (32 : Word).toNat ≤ base.params.hdrMaxUnits) ∧ ¬ (33 : Word).toNat ≤ base.params.hdrMaxUnits
      ∧ ¬ minUnits (layout .variableBits 4 8).cfg.bps.toNat ≤ (7 : Word).toNat := by decide

theorem witness_CfgPayloadBpsChecksAndEffect :
    (1 ≤ (8 : Byte).toNat ∧ (8 : Byte).toNat ≤ 8) ∧ ¬ 1 ≤ (0 : Byte).toNat ∧ ¬ (9 : Byte).toNat ≤ 8 := by decide

theorem witness_CfgOccLenChecksAndEffect :
    (1 ≤ (2 : Byte).toNat ∧ (2 : Byte).toNat ≤ base.params.occMax ∧ (base.cfg.variant = .ofdm → False))
      ∧ ¬ (3 : Byte).toNat ≤ base.params.occMax ∧ ¬ 1 ≤ (0 : Byte).toNat := by decide

theorem witness_CfgOccEntryChecksAndEffect :
    ((1 : Byte).toNat < base.params.occMax ∧ (65535 : Word).toNat ≤ 65535 ∧ (base.cfg.variant = .ofdm → False))
      ∧ ¬ (2 : Byte).toNat < base.params.occMax ∧ ¬ (65536 : Word).toNat ≤ 65535
      ∧ (layout .ofdm 8 5).cfg.occ.set 0 0 = [0, 0] := by decide

theorem witness_FaultBlocksEveryOtherCommand :
    (∃ (i : Instr) (s : State), i.isCommand = true ∧ i ≠ .nop ∧ i ≠ .reset ∧ (∀ r, i ≠ .readReg r) ∧ s.fault = true)
      ∧ (∃ (s t : State) (r : Response), s.fault = true ∧ exec .nop s = .next t ∧ t.respOut = s.respOut ++ [r])
      ∧ (∃ s t : State, s.fault = false ∧ exec (.cfgBps 9) s = .next t)
      ∧ ∃ s t : State, s.fault = true ∧ exec .reset s = .next t :=
  ⟨⟨.syncReset, { base with fault := true }, by decide, by decide, by decide, fun _ => by simp, rfl⟩,
    ⟨{ base with fault := true }, _, ⟨.ok, 0⟩, rfl, rfl, rfl⟩, ⟨base, base.fail .cfgErr, rfl, rfl⟩,
    { base with fault := true }, _, rfl, rfl⟩

theorem witness_FailRecordsAndResponds : ((1, Status.illegal) : Nat × Status) ∈
    [(1, Status.illegal), (2, Status.cfgErr), (3, Status.blocked), (4, Status.fmtLen), (5, Status.fmtUnsup)] := by decide

theorem witness_LastErrHoldsTheLatestFailure :
    (∃ (i : Instr) (s t : State), i.isCommand = true ∧ i ≠ .reset ∧ exec i s = .next t)
      ∧ (∃ s t : State, s.lastErr ≠ 0 ∧ exec .reset s = .next t) ∧ Status.fmtUnsup ≠ .ok := by
  obtain ⟨t, h⟩ := next_of_after (show (after (exec (.format 70000) base)).isSome = true by decide)
  exact ⟨⟨_, base, t, by decide, by decide, h⟩, ⟨{ base with lastErr := 3 }, _, by decide, rfl⟩, by decide⟩

theorem witness_FailedCommandHasNoOtherEffect : ∃ (i : Instr) (s t : State) (r : Response), i.isCommand = true ∧
    exec i s = .next t ∧ t.respOut = s.respOut ++ [r] ∧ r.status ≠ .ok :=
  ⟨.cfgBps 9, base, base.fail .cfgErr, ⟨.cfgErr, 0⟩, by decide, rfl, rfl, by decide⟩

theorem witness_OnlyTheNamedCommandsChangeCounterAndConfiguration : ∃ (i : Instr) (s t : State), i.isCommand = true ∧
    exec i s = .next t ∧ (∀ L, i ≠ .format L) ∧ i ≠ .reset
    ∧ (∀ c, encode i = some c → c.op.toNat < 0x10 ∨ 0x17 < c.op.toNat) := by
  obtain ⟨t, h⟩ := next_of_after (show (after (exec (.pushBit true) base)).isSome = true by decide)
  exact ⟨_, base, t, by decide, h, fun _ => by simp, by decide, by rintro c ⟨⟩; decide⟩

theorem witness_OutputPortsAreAppendOnly :
    ∃ (i : Instr) (s t : State), i.isCommand = true ∧ exec i s = .next t ∧ t.recOut ≠ s.recOut := by
  have hn : (after (exec (.pushBit false) collecting)).any (fun t => t.recOut != collecting.recOut) = true := by decide
  obtain ⟨t, h⟩ := next_of_after (show (after (exec (.pushBit false) collecting)).isSome = true by decide)
  rw [h] at hn
  exact ⟨_, collecting, t, by decide, h, by simpa [after] using hn⟩

theorem witness_OnlySearchBitsReachTheCorrelator :
    (∃ (b : Bool) (s t : State), s.fault = false ∧ exec (.pushBit b) s = .next t ∧ s.fsm = .syncSearch ∧ s.cfg.effL ≠ 0)
      ∧ ∃ (b : Bool) (s t : State), s.fault = false ∧ exec (.pushBit b) s = .next t ∧ s.fsm = .haveSync := by
  obtain ⟨t, h⟩ := next_of_after (show (after (exec (.pushBit true) base)).isSome = true by decide)
  obtain ⟨u, g⟩ := next_of_after (show (after (exec (.pushBit true) collecting)).isSome = true by decide)
  exact ⟨⟨_, base, t, by decide, h, by decide, by decide⟩, _, collecting, u, by decide, g, by decide⟩

theorem witness_FormatAndReadsLeaveTheDecodePath : ∃ (i : Instr) (s t : State),
    (i = .nop ∨ (∃ L, i = .format L) ∨ ∃ r, i = .readReg r) ∧ exec i s = .next t ∧ s.fsm = .haveSync := by
  obtain ⟨t, h⟩ := next_of_after (show (after (exec (.format 65535) collecting)).isSome = true by decide)
  exact ⟨_, collecting, t, .inr (.inl ⟨_, rfl⟩), h, by decide⟩

theorem witness_EncodeAndDecodeDoNotInterfere :
    (∃ (b : Bool) (s s' t t' : State), s.Inv ∧ s'.Inv ∧ s.fault = false ∧ s'.fault = false ∧
        s.decodeView = s'.decodeView ∧ exec (.pushBit b) s = .next t ∧ exec (.pushBit b) s' = .next t' ∧ s ≠ s')
      ∧ ∃ (L : Word) (s s' t t' : State), s.fault = false ∧ s'.fault = false ∧ s.params = s'.params ∧ s.cfg = s'.cfg ∧
        s.txCounter = s'.txCounter ∧ exec (.format L) s = .next t ∧ exec (.format L) s' = .next t' ∧ s.fsm ≠ s'.fsm := by
  obtain ⟨t, h⟩ := next_of_after (show (after (exec (.pushBit true) collecting)).isSome = true by decide)
  obtain ⟨u, g⟩ := next_of_after (show (after (exec (.pushBit true) { collecting with txCounter := 9 })).isSome = true by decide)
  obtain ⟨v, k⟩ := next_of_after (show (after (exec (.format 5) base)).isSome = true by decide)
  obtain ⟨w, m⟩ := next_of_after (show (after (exec (.format 5) counting)).isSome = true by decide)
  exact ⟨⟨_, collecting, { collecting with txCounter := 9 }, t, u, collecting_inv, inv_of_check small_legal (by decide),
      by decide, by decide, rfl, h, g, fun e => absurd (congrArg State.txCounter e) (by decide)⟩,
    _, base, counting, v, w, by decide, by decide, rfl, rfl, rfl, k, m, by decide⟩

theorem witness_PushCompletesAndReportsARecord : collecting.Inv ∧ collecting.fault = false := ⟨collecting_inv, by decide⟩

theorem witness_PushedBitWhileSearching : base.fault = false ∧ base.fsm = .syncSearch ∧ base.cfg.effL ≠ 0 := by decide

theorem witness_PushedBitWhileCollecting :
    (∃ s : State, s.fault = false ∧ s.fsm = .haveSync ∧ s.hrLen.toNat + 1 < s.cfg.htgt ∧ s.hrLen.toNat < s.hrBits.length)
      ∧ (uncoded.fault = false ∧ uncoded.fsm = .syncSearch ∧ uncoded.cfg.effL = 0 ∧ 1 < uncoded.cfg.htgt
          ∧ 0 < uncoded.hrBits.length) :=
  ⟨⟨{ collecting with hrLen := 30 }, by decide, by decide, by decide, by decide⟩, by decide⟩

theorem witness_PushedBitThatCompletesAHeader : collecting.Inv ∧ collecting.fault = false ∧ collecting.fsm = .haveSync
    ∧ collecting.hrLen.toNat + 1 = collecting.cfg.htgt := ⟨collecting_inv, by decide, by decide, by decide⟩

theorem witness_PushedBitWhileCountingPayload :
    (counting.fault = false ∧ counting.fsm = .haveHeader ∧ counting.payloadRemain ≠ 0)
      ∧ { counting with payloadRemain := 0 }.fsm = .haveHeader := by decide

theorem witness_PushBitIsConsumeBitWithAResponse : counting.Inv ∧ counting.fault = false := ⟨counting_inv, by decide⟩

theorem witness_JudgeHeaderEmitsOrDrops : ∃ s : State, s.params.Legal ∧ s.cfg.valid s.params = true ∧
    s.hrBits.length = s.params.hrCap ∧ s.hrLen.toNat = s.cfg.htgt :=
  ⟨holding base (wire [0x00, 0x64, 0x00, 0x64]), small_legal, by decide, by decide, by decide⟩

/-- A full header register under each of the five layouts. -/
theorem witness_JudgeHeaderEmitsOrDrops_layouts (v : Variant) : ∃ s : State, s.cfg.variant = v ∧ s.params.Legal ∧
    s.cfg.valid s.params = true ∧ s.hrBits.length = s.params.hrCap ∧ s.hrLen.toNat = s.cfg.htgt :=
  ⟨holding (layout v 1 32) (List.replicate (layout v 1 32).cfg.htgt true), rfl, small_legal, by cases v <;> decide,
    by cases v <;> decide, by cases v <;> decide⟩

/-- A header one bit short of its target under each of the five layouts, within the invariant. -/
theorem witness_PushedBitThatCompletesAHeader_layouts (v : Variant) : ∃ s : State, s.cfg.variant = v ∧ s.Inv ∧
    s.fault = false ∧ s.fsm = .haveSync ∧ s.hrLen.toNat + 1 = s.cfg.htgt :=
  ⟨{ holding (layout v 1 32) (List.replicate ((layout v 1 32).cfg.htgt - 1) true) with fsm := .haveSync }, rfl,
    inv_of_check small_legal (by cases v <;> decide), by cases v <;> decide, by cases v <;> decide,
    by cases v <;> decide⟩

theorem witness_BurstsOfAStreamCompose : uncoded.Inv ∧ uncoded.fault = false := ⟨uncoded_inv, by decide⟩

theorem witness_HeaderBufferFields :
    (8 ≤ Overload.bits64.bytes ∧ 0 ≤ Overload.bits8.bytes) ∧ Overload.bits8.bytes < 2 := by decide

theorem witness_HeaderRegisterInsertClearAndExtracts :
    collecting.hrLen.toNat < collecting.hrBits.length
      ∧ (holding base (List.replicate 256 true)).hrBits.length ≤ (holding base (List.replicate 256 true)).hrLen.toNat
      ∧ (1 ≤ 64 ∧ (holding base (List.replicate 64 true)).hrLen.toNat ≤ (holding base (List.replicate 64 true)).hrBits.length
          ∧ 0 + 63 < (holding base (List.replicate 64 true)).hrLen.toNat
          ∧ 0 + 64 ≤ (holding base (List.replicate 64 true)).hrLen.toNat) := by decide

theorem witness_OfdmSymbolsIsTheLeastSufficientCount :
    (1 ≤ base.cfg.payloadBps.toNat ∧ 1 ≤ base.cfg.occLen.toNat ∧ base.cfg.occLen.toNat ≤ base.cfg.occ.length
        ∧ InUse base.cfg.occ base.cfg.occLen.toNat)
      ∧ (1 : BitVec 32) ≠ 0 ∧ (withCfg base { base.cfg with payloadBps := 0 }).cfg.payloadBps = 0 :=
  ⟨⟨by decide, by decide, by decide, inUse_first _ _ _ (by decide) (by decide)⟩, by decide, by decide⟩

theorem witness_CrcLayoutDetectsUpToThreeFlips : ∃ (s : State) (l c : BitVec 12) (e : BitVec 32), e ≠ 0#32 ∧
    popcount e ≤ 3 ∧
    s.HrHolds ((List.range 32).map fun i => ((c ++ (l ++ crcOf l c) : BitVec 32) ^^^ e).getLsbD (31 - i)) :=
  ⟨holding base (wire [0x80, 0x00, 0x64, 0xDF]), 100, 0, 0x80000003, by decide, by decide,
    holds_of (by decide) (by decide)⟩

theorem witness_CodedHeadersOnTheWire : ∃ (L : Word) (s : State), s.cfg.variant.hasCode = true ∧ s.cfg.acLen.toNat ≤ 64 ∧
    s.cfg.acLen.toNat % 8 = 0 ∧ s.fault = false ∧ L.toNat ≤ 65535 ∧ s.cfg.variant = .default :=
  ⟨65535, withCfg base { base.cfg with acLen := 64 }, by decide, by decide, by decide, by decide, by decide, by decide⟩

theorem witness_CodedHeadersOnTheWire_counter : ∃ s : State, s.cfg.variant.hasCode = true ∧ s.cfg.acLen.toNat ≤ 64 ∧
    s.cfg.acLen.toNat % 8 = 0 ∧ s.fault = false ∧ s.cfg.variant = .counter :=
  ⟨layout .counter 1 32, by decide, by decide, by decide, by decide, by decide⟩

theorem witness_CrcHeaderOnTheWire : uncoded.fault = false ∧ uncoded.cfg.variant = .crc := by decide

theorem witness_UnitHeadersOnTheWire : ∃ s : State, s.params.Legal ∧ s.cfg.valid s.params = true ∧
    s.cfg.variant.usesUnits = true ∧ s.hb = [] ∧ s.fault = false ∧ s.cfg.hdrUnits.toNat * s.cfg.bps.toNat = 256 :=
  ⟨layout .ofdm 8 32, small_legal, by decide, by decide, by decide, by decide, by decide⟩

theorem witness_FormatRefusalsAndLength :
    (∃ s : State, s.fault = false ∧ s.cfg.variant.hasCode = true ∧ s.cfg.acLen.toNat % 8 ≠ 0 ∧ s.cfg.effL % 8 ≠ 0)
      ∧ (base.fault = false ∧ base.cfg.variant.hasCode = true ∧ base.cfg.acLen.toNat % 8 = 0
          ∧ 65535 < (65536 : Word).toNat)
      ∧ (base.params.Legal ∧ base.cfg.valid base.params = true ∧ (65535 : Word).toNat ≤ 65535) :=
  ⟨⟨withCfg base { base.cfg with acLen := 12 }, by decide, by decide, by decide, by decide⟩, by decide,
    small_legal, by decide, by decide⟩

theorem witness_LengthPairHeadersAreJudgedAndRead :
    (∃ s : State, s.HrHolds ((bigEndian16 100 ++ bigEndian16 101).flatMap msbFirst))
      ∧ ∃ s : State, s.HrHolds
        ((bigEndian16 100 ++ bigEndian16 100 ++ bigEndian16 2 ++ bigEndian16 0xFFFF).flatMap msbFirst) :=
  ⟨⟨holding base (wire [0, 100, 0, 101]), holds_of (by decide) (by decide)⟩,
    holding base (wire [0, 100, 0, 100, 0, 2, 0xFF, 0xFF]), holds_of (by decide) (by decide)⟩

theorem witness_CrcHeadersAreJudgedAndRead : ∃ (l c : BitVec 12) (k : Byte) (s : State),
    s.HrHolds ((List.range 32).map fun i => (c ++ (l ++ k) : BitVec 32).getLsbD (31 - i)) :=
  ⟨904, 4095, 0x17, holding base (wire [0xFF, 0xF3, 0x88, 0x17]), holds_of (by decide) (by decide)⟩

/-- The stream bits of a unit header of `FORMAT 100` with `BPS 5` (95, 2.5), with a padding bit flipped. -/
def padded : List Bool := ([0x04, 0x03, 0x00, 0x00, 0x00, 0x00, 0x1C, 0x06].flatMap (unitBits 5)).set 12 true

theorem padded_fields : ∀ j, j < 40 →
    (j < 12 ∨ (ceilDiv 12 5 * 5 ≤ j ∧ j < ceilDiv 12 5 * 5 + 12) ∨ (2 * ceilDiv 12 5 * 5 ≤ j ∧ j < 2 * ceilDiv 12 5 * 5 + 8)) →
    padded[j]? = some (unitHeaderBit 5 100 0 0xDC j) := by decide

theorem witness_UnitHeadersAreJudgedAndRead : ∃ (l c : BitVec 12) (k : Byte) (bits : List Bool) (s : State),
    s.params.Legal ∧ s.cfg.valid s.params = true ∧ s.cfg.variant.usesUnits = true ∧ bits.length = s.cfg.htgt ∧
    (∀ j, j < s.cfg.htgt →
      (j < 12 ∨ (ceilDiv 12 s.cfg.bps.toNat * s.cfg.bps.toNat ≤ j ∧ j < ceilDiv 12 s.cfg.bps.toNat * s.cfg.bps.toNat + 12)
        ∨ (2 * ceilDiv 12 s.cfg.bps.toNat * s.cfg.bps.toNat ≤ j
            ∧ j < 2 * ceilDiv 12 s.cfg.bps.toNat * s.cfg.bps.toNat + 8)) →
      bits[j]? = some (unitHeaderBit s.cfg.bps.toNat l c k j)) ∧ s.HrHolds bits :=
  ⟨100, 0, 0xDC, padded, holding (layout .variableBits 5 8) padded, small_legal, by decide, by decide, by decide,
    padded_fields, holds_of (by decide) (by decide)⟩

theorem witness_UnitHeadersAreJudgedAndRead_ofdm : ∃ s : State, s.cfg.valid s.params = true ∧ s.cfg.variant = .ofdm ∧
    padded.length = s.cfg.htgt ∧ s.cfg.bps = 5 ∧
    s.HrHolds (padded.mapIdx fun j x => x ^^ (s.params.scrambleSeq[j]?).getD false) :=
  ⟨holding (layout .ofdm 5 8) (padded.mapIdx fun j x => x ^^ (small.scrambleSeq[j]?).getD false), by decide, by decide,
    by decide, by decide, holds_of (by decide) (by decide)⟩

theorem noEarlyMatch_of {s : State} {stream : List Bool} {n : Nat}
    (h : (List.range n).all (fun k => k == 0 || !matchSignal s.cfg (shiftAll s.dataReg (stream.take k))) = true) :
    NoEarlyMatch s stream n := by
  intro k hk hn
  have := List.all_eq_true.mp h k (List.mem_range.mpr hn)
  simp only [Bool.or_eq_true, beq_iff_eq, Bool.not_eq_true'] at this
  exact this.resolve_left (by omega)

theorem witness_CodedHeaderRoundTrip : ∃ (L : Word) (s t u : State) (h : List Byte) (pre : List Bool),
    s.Inv ∧ s.fault = false ∧ s.cfg.variant.hasCode = true ∧ s.cfg.acLen.toNat % 8 = 0 ∧ s.cfg.effL ≠ 0 ∧
    L.toNat ≤ 65535 ∧ exec (.format L) s = .next t ∧ t.hdrOut = s.hdrOut ++ h ∧
    u.Inv ∧ u.fault = false ∧ u.params = s.params ∧ u.cfg = s.cfg ∧ u.fsm = .syncSearch ∧ u.nskip = 0 ∧
    NoEarlyMatch u (pre ++ wireBits s.cfg h) (pre.length + s.cfg.effL) := by
  have hh : (after (exec (.format 100) base)).any (fun t => t.hdrOut == base.hdrOut ++ [0xA5, 0, 100, 0, 100]) = true := by
    decide
  obtain ⟨t, g⟩ := next_of_after (show (after (exec (.format 100) base)).isSome = true by decide)
  rw [g] at hh
  exact ⟨100, base, t, { base with nskip := 0 }, [0xA5, 0, 100, 0, 100], [false, true, false], base_inv, by decide,
    by decide, by decide, by decide, by decide, g, by simpa [after] using hh, inv_of_check small_legal (by decide),
    by decide, rfl, rfl, by decide, rfl, noEarlyMatch_of (by decide)⟩

theorem witness_UncodedHeaderRoundTrip : ∃ (L : Word) (s t u : State) (h : List Byte),
    s.Inv ∧ s.fault = false ∧ s.cfg.effL = 0 ∧ (s.cfg.variant.hasCode = true → L.toNat ≤ 65535) ∧
    exec (.format L) s = .next t ∧ t.hdrOut = s.hdrOut ++ h ∧
    u.Inv ∧ u.fault = false ∧ u.params = s.params ∧ u.cfg = s.cfg ∧ u.fsm = .syncSearch ∧ u.nskip = 0 := by
  have hh : (after (exec (.format 5000) uncoded)).any (fun t => t.hdrOut == uncoded.hdrOut ++ [0xFF, 0xF3, 0x88, 0x17]) =
      true := by decide
  obtain ⟨t, g⟩ := next_of_after (show (after (exec (.format 5000) uncoded)).isSome = true by decide)
  rw [g] at hh
  exact ⟨5000, uncoded, t, uncoded, [0xFF, 0xF3, 0x88, 0x17], uncoded_inv, by decide, by decide, by decide, g,
    by simpa [after] using hh, uncoded_inv, by decide, rfl, rfl, by decide, by decide⟩

end Sys2Proof.Tests
end

section
/-! SUPPORT. What a command can do, said once, and the statements about the state that follow from it: the reset values and
the invariant at power-on, the reads of registers, and the frame of every command. -/

namespace Sys2Proof

/-! ## The fields of a command -/

/-- The opcode of a command made from its fields (R81). -/
@[simp] theorem Command.op_ofFields (op arg : Byte) (data : Word) : (Command.ofFields op arg data).op = op := by
  ext i hi
  simp only [Command.op, Command.ofFields, BitVec.getElem_extractLsb', BitVec.getLsbD_append]
  simp [BitVec.getLsbD_eq_getElem hi]

/-- The configuration commands: those whose opcode is 0x10 to 0x17 (R85, R190). -/
def Instr.IsConfig (i : Instr) : Prop :=
  ∃ c, encode i = some c ∧ 0x10 ≤ c.op.toNat ∧ c.op.toNat ≤ 0x17

theorem Instr.isConfig_of_encode {i : Instr} {op arg : Byte} {data : Word}
    (h : encode i = some (.ofFields op arg data)) (hlo : 0x10 ≤ op.toNat) (hhi : op.toNat ≤ 0x17) : i.IsConfig :=
  ⟨_, h, by simpa using hlo, by simpa using hhi⟩

theorem Instr.IsConfig.ne_reset {i : Instr} (h : i.IsConfig) : i ≠ .reset := by
  rintro rfl
  obtain ⟨c, hc, hlo, -⟩ := h
  cases hc
  simp at hlo

/-! ## Runs of bits as numbers -/

/-- Rounding up to whole units loses nothing (R10). -/
theorem le_ceilDiv_mul (a : Nat) {b : Nat} (hb : 0 < b) : a ≤ ceilDiv a b * b := by
  have h := Nat.lt_div_mul_add (a := a + b - 1) hb
  unfold ceilDiv
  omega

/-- Bit `w-1-k` of the number read from `w` bits is the bit received `k`-th: the first bit is the most significant (R111). -/
theorem fieldMsb_testBit (bits : Nat → Bool) (off : Nat) {w k : Nat} (hk : k < w) :
    (fieldMsb bits off w).testBit (w - 1 - k) = bits (off + k) := by
  induction w with
  | zero => omega
  | succ w ih =>
    have hlast : fieldMsb bits off (w + 1) = Nat.bit (bits (off + w)) (fieldMsb bits off w) := by
      rw [fieldMsb, Nat.bit_val]
    rw [hlast]
    obtain rfl | hlt := Nat.eq_or_lt_of_le (Nat.le_of_lt_succ hk)
    · simp
    · rw [show w + 1 - 1 - k = (w - 1 - k) + 1 by omega, Nat.testBit_bit_succ, ih hlt]

end Sys2Proof

namespace Sys2Proof.Machine

/-! ## Responses and errors -/

/-- `fail` with its whole effect written out (R222). -/
theorem State.fail_eq (st : Status) (s : State) :
    s.fail st = { s with lastErr := st.code, fault := s.fault || decide (st = .cfgErr),
                         respOut := s.respOut ++ [⟨st, 0⟩] } := rfl

/-! ## The configuration -/

/-- The clauses of a valid configuration (R30). -/
theorem CfgRegs.valid_iff {p : Params} {c : CfgRegs} : c.valid p = true ↔
    c.codeFits = true ∧ c.threshold.toNat ≤ c.acLen.toNat ∧ (1 ≤ c.bps.toNat ∧ c.bps.toNat ≤ 8)
      ∧ (1 ≤ c.hdrUnits.toNat ∧ c.hdrUnits.toNat ≤ p.hdrMaxUnits)
      ∧ (1 ≤ c.payloadBps.toNat ∧ c.payloadBps.toNat ≤ 8)
      ∧ (1 ≤ c.occLen.toNat ∧ c.occLen.toNat ≤ p.occMax)
      ∧ c.occ.length = p.occMax ∧ c.unitsFit = true ∧ c.occupied = true := by
  simp [CfgRegs.valid, Config.bpsMin, Config.bpsMax, and_assoc]

/-- The configuration after reset is valid for every legal implementation (R56, R30). -/
theorem CfgRegs.reset_valid {p : Params} (hp : p.Legal) : (CfgRegs.reset p).valid p = true := by
  obtain ⟨-, hunits, -, hocc, -, -⟩ := hp
  have hlen : (CfgRegs.reset p).occ.length = p.occMax := by simp [CfgRegs.reset, Nat.sub_add_cancel hocc]
  refine CfgRegs.valid_iff.mpr ⟨?_, ?_, ?_, ⟨?_, hunits⟩, ?_, ⟨?_, hocc⟩, hlen, rfl, rfl⟩ <;>
    simp [CfgRegs.reset, CfgRegs.codeFits]

/-- Every header that is counted in units has room for its fields: `min_units(b)` units of `b` bits are at least the 12, 12
and 8 bits of R149. -/
theorem le_minUnits_mul {b : Nat} (hb : 0 < b) : 32 ≤ minUnits b * b := by
  have h12 := le_ceilDiv_mul 12 hb
  have h8 := le_ceilDiv_mul 8 hb
  calc 32 ≤ 2 * (ceilDiv 12 b * b) + ceilDiv 8 b * b := by omega
    _ = minUnits b * b := by rw [minUnits]; ring

/-- The target of a layout that is counted in units lies between the 32 field bits and the register's capacity (R34, R38). -/
theorem units_target_bounds {p : Params} {c : CfgRegs} (hv : c.valid p = true) (hu : c.variant.usesUnits = true) :
    32 ≤ c.hdrUnits.toNat * c.bps.toNat ∧ c.hdrUnits.toNat * c.bps.toNat ≤ p.hrCap := by
  obtain ⟨-, -, ⟨hb1, hb8⟩, ⟨-, hmax⟩, -, -, -, hfit, -⟩ := CfgRegs.valid_iff.mp hv
  have hmin : minUnits c.bps.toNat ≤ c.hdrUnits.toNat := by simpa [CfgRegs.unitsFit, hu] using hfit
  have hcap : c.hdrUnits.toNat * c.bps.toNat ≤ p.hdrMaxUnits * 8 := Nat.mul_le_mul hmax hb8
  refine ⟨(le_minUnits_mul hb1).trans (Nat.mul_le_mul_right _ hmin), ?_⟩
  unfold Params.hrCap
  omega

/-- `FORMAT`'s value checks answer a failure (R160, R223). -/
theorem formatCheck_ne_ok {len : Word} {c : CfgRegs} {st : Status} (h : formatCheck len c = some st) : st ≠ .ok := by
  rintro rfl
  unfold formatCheck at h
  split at h
  · split at h
    · cases h
    · split at h <;> cases h
  · cases h

/-! ## What a stream bit can do -/

theorem emptyCodeMove_of_empty {s : State} (hs : s.fsm = .syncSearch) (he : s.cfg.effL = 0) :
    emptyCodeMove s = s.sync := by
  simp [emptyCodeMove, hs, he]

theorem emptyCodeMove_of_not {s : State} (h : ¬ (s.fsm = .syncSearch ∧ s.cfg.effL = 0)) : emptyCodeMove s = s := by
  simp [emptyCodeMove, h]

/-- The move of an empty code changes only `STATE` and `HR.len` (R125). -/
theorem emptyCodeMove_frame (s : State) :
    emptyCodeMove s = { s with fsm := (emptyCodeMove s).fsm, hrLen := (emptyCodeMove s).hrLen } := by
  unfold emptyCodeMove
  split <;> rfl

/-- After the move of an empty code, the correlator is reached exactly in `SyncSearch` with a non-empty code (R125, R170). -/
theorem emptyCodeMove_searching_iff (s : State) :
    (emptyCodeMove s).fsm = .syncSearch ↔ s.fsm = .syncSearch ∧ s.cfg.effL ≠ 0 := by
  by_cases h : s.fsm = .syncSearch ∧ s.cfg.effL = 0
  · simp [emptyCodeMove_of_empty h.1 h.2, h.2]
  · rw [emptyCodeMove_of_not h]
    tauto

/-- What a bit consumed in `SyncSearch` changes: it enters the correlator and is counted (R120, R170, R171). -/
theorem searchBit_frame (b : Bool) (s : State) :
    searchBit b s = { s with fsm := (searchBit b s).fsm, hrLen := (searchBit b s).hrLen,
                             dataReg := shiftIn s.dataReg b, nskip := s.nskip + 1 } := by
  unfold searchBit
  split <;> rfl

theorem afterRead_frame (hi : Nat) (s : State) : s.afterRead hi = { s with draws := (s.afterRead hi).draws } := by
  obtain h | h := afterRead_cases hi s <;> rw [h]

theorem startPayload_frame (count : BitVec 32) (s : State) :
    s.startPayload count = { s with fsm := (s.startPayload count).fsm,
                                    payloadRemain := (s.startPayload count).payloadRemain } := by
  obtain ⟨-, h⟩ | ⟨-, h⟩ := startPayload_cases count s <;> rw [h]

/-- Judging a header appends one record if it is emitted and none if it is dropped, and leaves alone the correlator, the
cells, and everything outside the decode path (R172, R175). -/
theorem judgeHeader_frame {s u : State} {e : Bool} (h : judgeHeader s = .ok (u, e)) :
    ∃ rs : List Record, rs.length = e.toNat ∧
      u = { s with fsm := u.fsm, hrLen := u.hrLen, nskip := u.nskip, payloadRemain := u.payloadRemain,
                   draws := u.draws, recOut := s.recOut ++ rs } := by
  obtain ⟨rfl, -, rfl⟩ | ⟨rfl, -, len, r, n, -, -, rfl⟩ := judgeHeader_cases h
  · refine ⟨[], rfl, ?_⟩
    rw [afterRead_frame]
    simp [State.dropHeader, State.hrClear]
  · refine ⟨[{ r with skip := s.nskip }], rfl, ?_⟩
    rw [startPayload_frame, afterRead_frame]
    simp [State.deliver, State.hrClear, State.emitRec]

/-- A header bit leaves alone the correlator and everything outside the decode path, and appends a record exactly when it
completes a header that is emitted (R170, R172). -/
theorem headerBit_frame {b : Bool} {s u : State} {e : Bool} (h : headerBit b s = .ok (u, e)) :
    ∃ rs : List Record, rs.length = e.toNat ∧
      u = { s with fsm := u.fsm, hrBits := u.hrBits, hrLen := u.hrLen, nskip := u.nskip,
                   payloadRemain := u.payloadRemain, draws := u.draws, recOut := s.recOut ++ rs } := by
  obtain ⟨v, hv, hjudge⟩ := headerBit_cases h
  obtain ⟨-, rfl⟩ := hrInsert_ok hv
  obtain ⟨-, hj⟩ | ⟨-, rfl, rfl⟩ := hjudge
  · obtain ⟨rs, hrs, hu⟩ := judgeHeader_frame hj
    refine ⟨rs, hrs, ?_⟩
    rw [hu]
    rfl
  · exact ⟨[], rfl, by simp [State.skipBit]⟩

/-- What `ConsumeBit` can change: the decode path and the draw counter, with at most one record appended, and `DATA_REG`
exactly when the bit is searched for a non-empty code (R37, R78, R170, R177). -/
theorem consumeBit_frame {b : Bool} {s u : State} {e : Bool} (h : consumeBit b s = .ok (u, e)) :
    ∃ rs : List Record, rs.length = e.toNat ∧
      u = { s with fsm := u.fsm, hrBits := u.hrBits, hrLen := u.hrLen, nskip := u.nskip,
                   payloadRemain := u.payloadRemain, draws := u.draws, recOut := s.recOut ++ rs,
                   dataReg := if s.fsm = .syncSearch ∧ s.cfg.effL ≠ 0 then shiftIn s.dataReg b else s.dataReg } := by
  have hmove := emptyCodeMove_frame s
  have hsearch := emptyCodeMove_searching_iff s
  obtain ⟨hf, rfl, rfl⟩ | ⟨hf, hh⟩ | ⟨hf, rfl, hp⟩ := consumeBit_cases h
  · refine ⟨[], rfl, ?_⟩
    rw [if_pos (hsearch.mp hf), searchBit_frame, hmove]
    simp
  · obtain ⟨rs, hrs, hu⟩ := headerBit_frame hh
    refine ⟨rs, hrs, ?_⟩
    rw [if_neg (by rw [← hsearch, hf]; simp), hu, hmove]
  · obtain ⟨-, hu⟩ := payloadBit_ok hp
    refine ⟨[], rfl, ?_⟩
    rw [if_neg (by rw [← hsearch, hf]; simp), hu, hmove]
    simp

/-! ## What reading a register can do -/

theorem exec_readReg_assigned {s : State} {r : Byte} {v : Word} (ha : regAssigned s.params r.toNat = true)
    (hv : regValue s r.toNat = some v) :
    exec (.readReg r) s = .next ((s.afterReadReg r.toNat).respond .ok v) := by
  show execReadReg r s = _
  simp [execReadReg, ha, hv]

theorem exec_readReg_unassigned {s : State} {r : Byte} (h : regAssigned s.params r.toNat = false) :
    exec (.readReg r) s = .next (s.fail .illegal) := by
  show execReadReg r s = _
  simp [execReadReg, h]

/-- `READ_REG` answers the value of an assigned register, or fails with `ILLEGAL` (R205). -/
theorem exec_readReg_cases {s u : State} {r : Byte} (h : exec (.readReg r) s = .next u) :
    (∃ v, regValue s r.toNat = some v ∧ u = (s.afterReadReg r.toNat).respond .ok v) ∨ u = s.fail .illegal := by
  cases ha : regAssigned s.params r.toNat with
  | false => rw [exec_readReg_unassigned ha] at h; cases h; exact .inr rfl
  | true =>
    cases hv : regValue s r.toNat with
    | none => simp [exec, execReadReg, ha, hv] at h
    | some v => rw [exec_readReg_assigned ha hv] at h; cases h; exact .inl ⟨v, rfl, rfl⟩

/-- Only a read of a header word can draw (R55). -/
theorem afterReadReg_low {r : Nat} (h : r < 0x80) (s : State) : s.afterReadReg r = s := by
  simp [State.afterReadReg, h]

theorem afterReadReg_headerWord (w : Nat) (s : State) : s.afterReadReg (0x80 + w) = s.afterRead (64 * w + 64) := by
  simp [State.afterReadReg]

theorem afterReadReg_frame (r : Nat) (s : State) :
    s.afterReadReg r = { s with draws := (s.afterReadReg r).draws } := by
  unfold State.afterReadReg
  split
  · rfl
  · exact afterRead_frame _ s

/-! ## What a command can do -/

/-- Everything a command that goes on can do, a constructor for each kind of effect: what it ran, under which guards, and
the whole next state. -/
inductive CommandEffect (s : State) : Instr → State → Prop where
  /-- `NOP` (R206). -/
  | nop : CommandEffect s .nop (s.respond .ok 0)
  /-- `RESET` (R203). -/
  | reset : CommandEffect s .reset (s.resetAll.respond .ok 0)
  /-- `SYNC_RESET` (R204). -/
  | syncReset (hf : s.fault = false) : CommandEffect s .syncReset (s.framingReset.respond .ok 0)
  /-- A read of an assigned register (R205). -/
  | readReg {r : Byte} {v : Word} (hv : regValue s r.toNat = some v) :
      CommandEffect s (.readReg r) ((s.afterReadReg r.toNat).respond .ok v)
  /-- An accepted configuration command (R190). -/
  | configured {i : Instr} {new : CfgRegs} (hi : i.IsConfig) (hf : s.fault = false) (hv : new.valid s.params = true) :
      CommandEffect s i (State.respond .ok 0 (State.framingReset { s with cfg := new }))
  /-- A consumed stream bit (R176, R178). -/
  | pushed {i : Instr} {b : Bool} {u : State} {e : Bool} (hi : i = .pushBit b ∨ ∃ x, i = .pushSoft x ∧ sliceBit x = b)
      (hf : s.fault = false) (hc : consumeBit b s = .ok (u, e)) : CommandEffect s i (u.respond .ok (flagWord e))
  /-- An emitted header (R160). -/
  | formatted {len : Word} {u : State} (hf : s.fault = false) (hc : formatCheck len s.cfg = none)
      (hb : buildHeader len s = .ok u) :
      CommandEffect s (.format len) (u.respond .ok (BitVec.ofNat 64 s.cfg.headerNbytes))
  /-- A failed command (R222). -/
  | failed {i : Instr} {st : Status} (hi : i ≠ .reset) (hst : st ≠ .ok) : CommandEffect s i (s.fail st)

/-- A gated command is blocked, or does what its ungated meaning does (R86, R221). -/
theorem gate_effect {run : State → Out} {i : Instr} {s u : State} (hi : i ≠ .reset) (h : gate run s = .next u)
    (hrun : s.fault = false → run s = .next u → CommandEffect s i u) : CommandEffect s i u := by
  obtain ⟨-, rfl⟩ | ⟨hf, hr⟩ := gate_cases h
  · exact .failed hi (by decide)
  · exact hrun hf hr

/-- A configuration command is accepted, refused or blocked (R190). -/
theorem gate_configure_effect {run : State → Out} {i : Instr} {s u : State} {ok : Bool} {new : CfgRegs}
    (hi : i.IsConfig) (h : gate run s = .next u) (hrun : run s = .next (s.configure ok new)) :
    CommandEffect s i u := by
  refine gate_effect hi.ne_reset h fun hf hr => ?_
  rw [hrun] at hr
  cases hr
  obtain ⟨-, hv, hnew⟩ | hfail := configure_cases ok new s
  · rw [hnew]; exact .configured hi hf hv
  · rw [hfail]; exact .failed hi.ne_reset (by decide)

/-- `CFG_VARIANT` refuses a number that names no layout before the common rule is asked (R191). -/
theorem cfgVariant_effect {v : Byte} {s u : State} (h : exec (.cfgVariant v) s = .next u) :
    CommandEffect s (.cfgVariant v) u := by
  have hi : (Instr.cfgVariant v).IsConfig := Instr.isConfig_of_encode rfl (by decide) (by decide)
  cases hv : Variant.ofNumber v with
  | some w =>
    exact gate_configure_effect (ok := true) (new := { s.cfg with variant := w }) hi h
      (by simp only [cfgVariantCommand, hv])
  | none =>
    refine gate_effect hi.ne_reset h fun _ hr => ?_
    simp only [cfgVariantCommand, hv] at hr
    cases hr
    exact .failed hi.ne_reset (by decide)

/-- A push consumes its bit (R176, R178). -/
theorem push_effect {i : Instr} {b : Bool} {s u : State} (hi : i = .pushBit b ∨ ∃ x, i = .pushSoft x ∧ sliceBit x = b)
    (h : gate (pushStream b) s = .next u) : CommandEffect s i u := by
  have hreset : i ≠ .reset := by obtain rfl | ⟨x, rfl, -⟩ := hi <;> nofun
  refine gate_effect hreset h fun hf hr => ?_
  obtain ⟨v, e, hc, rfl⟩ := pushStream_next hr
  exact .pushed hi hf hc

/-- `FORMAT` fails one of its checks, or emits its header (R160). -/
theorem format_effect {len : Word} {s u : State} (h : exec (.format len) s = .next u) :
    CommandEffect s (.format len) u := by
  refine gate_effect (by nofun) h fun hf hr => ?_
  unfold formatCommand at hr
  split at hr
  · rename_i st hst
    cases hr
    exact .failed (by nofun) (formatCheck_ne_ok hst)
  · split at hr
    · cases hr
    · cases hr; exact .formatted hf ‹_› ‹_›

/-- A command that goes on does one of these. -/
theorem exec_effect {i : Instr} {s u : State} (hi : i.isCommand = true) (h : exec i s = .next u) :
    CommandEffect s i u := by
  cases i with
  | nop => cases h; exact .nop
  | reset => cases h; exact .reset
  | syncReset => exact gate_effect (by nofun) h fun hf hr => by cases hr; exact .syncReset hf
  | cfgVariant v => exact cfgVariant_effect h
  | cfgAccessCode | cfgThreshold | cfgBps | cfgHdrUnits | cfgPayloadBps | cfgOccLen | cfgOccEntry =>
    exact gate_configure_effect (Instr.isConfig_of_encode rfl (by decide) (by decide)) h rfl
  | pushBit b => exact push_effect (.inl rfl) h
  | pushSoft x => exact push_effect (.inr ⟨x, rfl, rfl⟩) h
  | format len => exact format_effect h
  | readReg r =>
    obtain ⟨v, hv, rfl⟩ | rfl := exec_readReg_cases h
    · exact .readReg hv
    · exact .failed (by nofun) (by decide)
  | _ => cases hi

/-! ## The values of registers -/

/-- The bits of a header word that are defined: bit `63-k` is cell `64w+k` (R48, R55). -/
theorem hrWord_getLsbD {s : State} {w k : Nat} (hk : k < 64) :
    (s.hrWord w).getLsbD (63 - k) = s.hrCell (64 * w + k) := by
  rw [State.hrWord, State.hrExtract, BitVec.getLsbD_ofNat, fieldMsb_testBit s.hrCell (64 * w) hk]
  simp [show 63 - k < 64 by omega]

/-- `ERR` as a number (R47). -/
theorem errWord_eq (fault : Bool) (lastErr : Byte) :
    errWord fault lastErr = BitVec.ofNat 64 (fault.toNat + 256 * lastErr.toNat) := by
  apply BitVec.eq_of_toNat_eq
  have hlt := lastErr.isLt
  have hb := Bool.toNat_lt fault
  have happ : (lastErr ++ (0x00#7 ++ BitVec.ofBool fault) : BitVec 16).toNat = fault.toNat + 256 * lastErr.toNat := by
    have hlow : (0x00#7 ++ BitVec.ofBool fault).toNat = fault.toNat := by cases fault <;> rfl
    rw [BitVec.toNat_append, hlow, ← Nat.shiftLeft_add_eq_or_of_lt (by omega), Nat.shiftLeft_eq]
    omega
  simp [errWord, happ]

/-- The values that `numbered` lists are those that `READ_REG` looks up, at the numbers 0x00 to 0x11 (R47). -/
theorem fixedReg_numbered (s : State) : ∀ r ∈ s.numbered,
    r.1.toNat ≤ 0x11 ∧ fixedReg s r.1.toNat = some (BitVec.ofNat 64 r.2) := by
  simp only [State.numbered, List.forall_mem_cons]
  simp [fixedReg, errWord_eq, CfgRegs.headerNbits, CfgRegs.headerNbytes, CfgRegs.effL]

/-- The numbers of an OCC entry and of a header word fit `ARG` (R8, R47). -/
theorem regNumber_fits {p : Params} (hp : p.Legal) : 0x40 + p.occMax ≤ 0x80 ∧ 0x80 + p.hrCap / 64 ≤ 0x100 := by
  obtain ⟨-, -, hunits, -, hocc, -⟩ := hp
  unfold Params.hrCap
  omega

/-! ## The obligations -/

/-- Settles O8: the configuration is `CfgRegs.reset_valid`, and the other clauses read the reset values. -/
theorem powerOnMeetsTheInvariant : Obligations.PowerOnMeetsTheInvariant := by
  intro p hp
  exact
    { params := hp
      config := CfgRegs.reset_valid hp
      cells := by simp [State.powerOn, Params.hrCap]
      collecting := by simp [State.powerOn]
      notCollecting := fun _ => rfl
      counting := by simp [State.powerOn]
      notCounting := fun _ => rfl
      noHistory := fun _ => rfl
      buffer := rfl
      errCode := by simp [State.powerOn]
      faulted := by simp [State.powerOn] }

/-- Settles O12: the fixed targets are numbers; those counted in units are bounded by `units_target_bounds`. -/
theorem minUnitsAndShortestHeader : Obligations.MinUnitsAndShortestHeader := by
  refine ⟨by decide, fun p c hv => ?_⟩
  have hunits := units_target_bounds hv
  have hcap : 64 ≤ p.hrCap := le_max_left _ _
  cases hvar : c.variant <;> simp only [CfgRegs.htgt, hvar, Variant.usesUnits] at hunits ⊢
  case default | counter | crc => omega
  case variableBits | ofdm => exact ⟨(hunits trivial).1, fun _ => (hunits trivial).2⟩

/-- Settles O15: the number is assigned, its value is the table's, and a number below 0x80 draws nothing. -/
theorem readRegOfNumberedRegistersAndEntries : Obligations.ReadRegOfNumberedRegistersAndEntries := by
  refine ⟨fun s r hr => ?_, fun s i v hp hi hv => ?_⟩
  · obtain ⟨hle, hval⟩ := fixedReg_numbered s r hr
    have ha : regAssigned s.params r.1.toNat = true := by simp [regAssigned, hle]
    rw [exec_readReg_assigned ha (by simpa [regValue, show r.1.toNat < 0x40 by omega] using hval),
      afterReadReg_low (by omega)]
    rfl
  · obtain ⟨hocc, -⟩ := regNumber_fits hp
    have hnum : (BitVec.ofNat 8 (0x40 + i)).toNat = 0x40 + i := by
      rw [BitVec.toNat_ofNat]; omega
    have ha : regAssigned s.params (0x40 + i) = true := by simp [regAssigned, hi]
    have hval : regValue s (0x40 + i) = some (v.setWidth 64) := by
      simp [regValue, hv, show 64 + i < 128 by omega]
    rw [exec_readReg_assigned (by rwa [hnum]) (by rwa [hnum]), hnum, afterReadReg_low (by omega)]
    rfl

/-- Settles O16: the word is `hrWord_getLsbD` cell by cell, each cell below `HR.len` reads as stored, and a full word draws
nothing. -/
theorem readRegOfHeaderWords : Obligations.ReadRegOfHeaderWords := by
  intro s w hp hlen hw
  obtain ⟨-, hcap⟩ := regNumber_fits hp
  have hnum : (BitVec.ofNat 8 (0x80 + w)).toNat = 0x80 + w := by
    rw [BitVec.toNat_ofNat]; omega
  have ha : regAssigned s.params (0x80 + w) = true := by simp [regAssigned, hw]
  have hval : regValue s (0x80 + w) = some (s.hrWord w) := by
    rw [regValue, if_neg (by omega), if_neg (by omega), Nat.add_sub_cancel_left]
  refine ⟨s.hrWord w, (s.afterRead (64 * w + 64)).draws, ?_, fun k hk hdef => ?_, fun hfull => ?_⟩
  · rw [exec_readReg_assigned (by rwa [hnum]) (by rwa [hnum]), hnum, afterReadReg_headerWord, afterRead_frame]
    rfl
  · have hb : s.hrBits[64 * w + k]? = some (s.hrBits[64 * w + k]'(by omega)) := List.getElem?_eq_getElem _
    rw [hrWord_getLsbD hk, hrCell_stored hdef hb, hb]
  · rw [afterRead_defined hfull (by omega)]

/-- Settles O17: none of the three ranges is assigned, so the read fails. -/
theorem readRegOfUnassignedNumbers : Obligations.ReadRegOfUnassignedNumbers := by
  intro s r hp hr
  obtain ⟨hocc, -⟩ := regNumber_fits hp
  have ha : regAssigned s.params r.toNat = false := by
    simp only [regAssigned, Bool.or_eq_false_iff, Bool.and_eq_false_iff, decide_eq_false_iff_not]
    omega
  rw [exec_readReg_unassigned ha, State.fail_eq]
  simp [Status.code]

/-- The one response of a command other than `RESET`, and what it says of `LAST_ERR` (R43, R83, R222). -/
theorem CommandEffect.lastErr {i : Instr} {s u : State} (h : CommandEffect s i u) (hi : i ≠ .reset) :
    ∃ r : Response, u.respOut = s.respOut ++ [r] ∧ u.lastErr = (if r.status = .ok then s.lastErr else r.status.code) := by
  cases h with
  | reset => exact absurd rfl hi
  | nop | syncReset | configured => exact ⟨_, rfl, rfl⟩
  | readReg => rw [afterReadReg_frame]; exact ⟨_, rfl, rfl⟩
  | pushed _ _ hc =>
    obtain ⟨rs, -, hu⟩ := consumeBit_frame hc
    rw [hu]; exact ⟨_, rfl, rfl⟩
  | formatted _ _ hb =>
    obtain ⟨v, -, -, rfl⟩ := buildHeader_ok hb
    exact ⟨_, rfl, rfl⟩
  | failed _ hst => exact ⟨_, rfl, by simp [hst]⟩

/-- Settles O28: by the kinds of effect a command can have. -/
theorem lastErrHoldsTheLatestFailure : Obligations.LastErrHoldsTheLatestFailure := by
  refine ⟨fun i s u hc hi h => (exec_effect hc h).lastErr hi, fun s u h => ?_, fun _ => rfl, fun st s hst => ?_⟩
  · cases h; rfl
  · show execFail st s = _
    rw [execFail, if_pos (by simpa [failStatusOk] using hst), State.fail_eq]

/-- Settles O30: of the kinds of effect, only `FORMAT` and `RESET` name `TX_COUNTER`, only the accepted configuration
commands and `RESET` name the configuration, and none names the parameters. -/
theorem onlyTheNamedCommandsChangeCounterAndConfiguration :
    Obligations.OnlyTheNamedCommandsChangeCounterAndConfiguration := by
  intro i s u hc h
  cases exec_effect hc h with
  | nop | syncReset | failed => exact ⟨fun _ _ => rfl, fun _ _ => rfl, rfl⟩
  | reset => exact ⟨fun _ hi => absurd rfl hi, fun _ hi => absurd rfl hi, rfl⟩
  | readReg => rw [afterReadReg_frame]; exact ⟨fun _ _ => rfl, fun _ _ => rfl, rfl⟩
  | configured hi =>
    obtain ⟨c, hc, hlo, hhi⟩ := hi
    exact ⟨fun _ _ => rfl, fun hop _ => absurd (hop c hc) (by omega), rfl⟩
  | pushed _ _ hcons =>
    obtain ⟨rs, -, hu⟩ := consumeBit_frame hcons
    rw [hu]; exact ⟨fun _ _ => rfl, fun _ _ => rfl, rfl⟩
  | formatted _ _ hb =>
    obtain ⟨v, -, -, rfl⟩ := buildHeader_ok hb
    exact ⟨fun hi _ => absurd rfl (hi _), fun _ _ => rfl, rfl⟩

/-- Settles O31: of the kinds of effect, only `FORMAT` names `HDR_OUT` and only a push names `REC_OUT`, and both append. -/
theorem outputPortsAreAppendOnly : Obligations.OutputPortsAreAppendOnly := by
  intro i s u hc h
  cases exec_effect hc h with
  | nop | reset | syncReset | configured | failed =>
    exact ⟨⟨[], by simp, fun _ => rfl⟩, [], by simp, by simp, fun _ _ => rfl⟩
  | readReg =>
    rw [afterReadReg_frame]
    exact ⟨⟨[], by simp, fun _ => rfl⟩, [], by simp, by simp, fun _ _ => rfl⟩
  | pushed hi _ hcons =>
    obtain ⟨rs, hrs, hu⟩ := consumeBit_frame hcons
    rw [hu]
    refine ⟨⟨[], by simp, fun _ => rfl⟩, rs, rfl, hrs ▸ Bool.toNat_le _, fun hbit hsoft => ?_⟩
    obtain rfl | ⟨x, rfl, -⟩ := hi
    · exact absurd rfl (hbit _)
    · exact absurd rfl (hsoft _)
  | formatted _ _ hb =>
    obtain ⟨v, -, -, rfl⟩ := buildHeader_ok hb
    exact ⟨⟨_, rfl, fun hi => absurd rfl (hi _)⟩, [], by simp, by simp, fun _ _ => rfl⟩

/-- Settles O32: with `FAULT = 0` a push consumes its bit, and `consumeBit_frame` says when `DATA_REG` takes it. -/
theorem onlySearchBitsReachTheCorrelator : Obligations.OnlySearchBitsReachTheCorrelator := by
  intro b s u hf h
  have hpush : pushStream b s = .next u := by rw [← gate_open (run := pushStream b) hf]; exact h
  obtain ⟨v, e, hcons, rfl⟩ := pushStream_next hpush
  obtain ⟨rs, -, hv⟩ := consumeBit_frame hcons
  exact congrArg State.dataReg hv

/-- Settles O59: layout by layout. -/
theorem dictionaryKeysByLayout : Obligations.DictionaryKeysByLayout := by
  intro r
  cases hv : r.variant <;> simp [Record.dictionary, hv, Variant.hasLengthKey, Variant.hasCounterKey]

end Sys2Proof.Machine
end

section
/-! SUPPORT. The decode path and the encode path do not meet: what reading a header depends on, the decode path of one state
put into another, what `FORMAT` builds, and the statements on steps and on independence that follow. -/

namespace Sys2Proof

/-! ## Reading a part of the bits -/

/-- A field depends on the bits up to its end alone (R111). -/
theorem fieldMsb_congr {f g : Nat → Bool} {n : Nat} (h : ∀ i < n, f i = g i) (off : Nat) {w : Nat} (hw : off + w ≤ n) :
    fieldMsb f off w = fieldMsb g off w := by
  induction w with
  | zero => rfl
  | succ w ih => rw [fieldMsb, fieldMsb, ih (by omega), h (off + w) (by omega)]

/-- A field read least significant bit first depends on the bits up to its end alone (R113). -/
theorem fieldLsb_congr {f g : Nat → Bool} {n : Nat} (h : ∀ i < n, f i = g i) (off : Nat) {w : Nat} (hw : off + w ≤ n) :
    fieldLsb f off w = fieldLsb g off w := by
  induction w with
  | zero => rfl
  | succ w ih => rw [fieldLsb, fieldLsb, ih (by omega), h (off + w) (by omega)]

/-- An opcode outside 0x10 to 0x17 is that of no configuration command (R85, R190). -/
theorem Instr.not_isConfig_of_encode {i : Instr} {op arg : Byte} {data : Word}
    (h : encode i = some (.ofFields op arg data)) (hop : op.toNat < 0x10 ∨ 0x17 < op.toNat) : ¬ i.IsConfig := by
  rintro ⟨c, hc, hlo, hhi⟩
  cases hc.symm.trans h
  rw [Command.op_ofFields] at hlo hhi
  omega

end Sys2Proof

namespace Sys2Proof.Machine

/-! ## What reading a header depends on -/

/-- Two states with the same header register read its defined cells alike, whatever they drew (R55). -/
theorem hrCell_congr {s s' : State} (hbits : s.hrBits = s'.hrBits) (hlen : s.hrLen = s'.hrLen) {i : Nat}
    (hi : i < s.hrDefined) : s.hrCell i = s'.hrCell i := by
  obtain ⟨hlt, hcell⟩ := lt_min_iff.mp hi
  have hb : s.hrBits[i]? = some s.hrBits[i] := List.getElem?_eq_getElem hcell
  rw [hrCell_stored hlt hb, hrCell_stored (by rwa [← hlen]) (by rwa [← hbits])]

/-- A header's last field ends within the least number of units (R35, R149). -/
theorem unitSpan_le_minUnits_mul {b : Nat} (hb : 0 < b) : unitSpan b ≤ minUnits b * b :=
  calc unitSpan b ≤ 2 * ceilDiv 12 b * b + ceilDiv 8 b * b := Nat.add_le_add_left (le_ceilDiv_mul 8 hb) _
    _ = minUnits b * b := by rw [minUnits]; ring

/-- The fields of a units header lie below its span (R149, R152). -/
theorem unitFields_congr {f g : Nat → Bool} {b : Nat} (hb : 0 < b) (h : ∀ i < unitSpan b, f i = g i) :
    unitFields f b = unitFields g b := by
  have hunit := le_ceilDiv_mul 12 hb
  have hspan : unitSpan b = ceilDiv 12 b * b + ceilDiv 12 b * b + 8 := by rw [unitSpan]; ring
  simp only [unitFields, fieldLsb_congr h 0 (w := 12) (by omega),
    fieldLsb_congr h (ceilDiv 12 b * b) (w := 12) (by omega),
    fieldLsb_congr h (2 * ceilDiv 12 b * b) (w := 8) le_rfl]

theorem unitWidth_congr {s s' : State} (hcfg : s.cfg = s'.cfg) : unitWidth s = unitWidth s' := by
  simp [unitWidth, hcfg]

theorem scrambledWidth_congr {s s' : State} (hcfg : s.cfg = s'.cfg) (hparams : s.params = s'.params) :
    scrambledWidth s = scrambledWidth s' := by
  simp only [scrambledWidth, unitWidth_congr hcfg, hcfg, hparams]

theorem ofdmSymbols_congr {s s' : State} (hcfg : s.cfg = s'.cfg) (p : Nat) : ofdmSymbols p s = ofdmSymbols p s' := by
  simp only [ofdmSymbols, hcfg]

theorem bps_pos {c : CfgRegs} (h : c.bps ≠ 0#4) : 0 < c.bps.toNat :=
  Nat.pos_of_ne_zero fun h0 => h (BitVec.eq_of_toNat_eq h0)

/-- Validation and extraction depend on the configuration, the parameters and the cells of the layout's span alone (R112,
R130). -/
theorem hdrOk_hdrPayload_congr {s s' : State} (hcfg : s.cfg = s'.cfg) (hparams : s.params = s'.params)
    (hcell : ∀ i < hdrSpan s.cfg, s.hrCell i = s'.hrCell i) : hdrOk s = hdrOk s' ∧ hdrPayload s = hdrPayload s' := by
  cases hv : s.cfg.variant <;> have hv' := hcfg ▸ hv <;>
    simp only [hdrSpan, hv] at hcell <;> simp only [hdrOk, hdrPayload, hv, hv']
  case default =>
    have hfst := fieldMsb_congr hcell 0 (w := 16) (by decide)
    have hsnd := fieldMsb_congr hcell 16 (w := 16) (by decide)
    exact ⟨by simp only [defaultHdrOk, hfst, hsnd], by simp only [defaultHdrPayload, hfst]⟩
  case counter =>
    have hfst := fieldMsb_congr hcell 0 (w := 16) (by decide)
    have hsnd := fieldMsb_congr hcell 16 (w := 16) (by decide)
    have hbps := fieldMsb_congr hcell 32 (w := 16) (by decide)
    have hctr := fieldMsb_congr hcell 48 (w := 16) (by decide)
    exact ⟨by simp only [counterHdrOk, hfst, hsnd], by simp only [counterHdrPayload, hfst, hbps, hctr]⟩
  case crc =>
    have hctr : crcHdrCounter s = crcHdrCounter s' := by rw [crcHdrCounter, crcHdrCounter, fieldMsb_congr hcell 0 (by decide)]
    have hlen : crcHdrLen s = crcHdrLen s' := by rw [crcHdrLen, crcHdrLen, fieldMsb_congr hcell 12 (by decide)]
    have hcrc : crcHdrCrc s = crcHdrCrc s' := by rw [crcHdrCrc, crcHdrCrc, fieldMsb_congr hcell 24 (by decide)]
    exact ⟨by simp only [crcHdrOk, hctr, hlen, hcrc], by simp only [crcHdrPayload, hctr, hlen]⟩
  case variableBits =>
    unfold variableBitsHdrOk variableBitsHdrPayload
    rw [← unitWidth_congr hcfg]
    cases hw : unitWidth s with
    | error f => exact ⟨rfl, rfl⟩
    | ok b =>
      obtain ⟨hne, rfl⟩ := unitWidth_ok hw
      have hfields := unitFields_congr (bps_pos hne) hcell
      simp only [hfields, and_self]
  case ofdm =>
    unfold ofdmHdrOk ofdmHdrPayload
    rw [← scrambledWidth_congr hcfg hparams]
    cases hw : scrambledWidth s with
    | error f => exact ⟨rfl, rfl⟩
    | ok b =>
      obtain ⟨hne, rfl, -⟩ := scrambledWidth_ok hw
      have hfields : unitFields s.hrDescrambled _ = unitFields s'.hrDescrambled _ :=
        unitFields_congr (bps_pos hne) fun i hi => by
          rw [State.hrDescrambled, State.hrDescrambled, hcell i hi, hparams]
      simp only [hfields, ofdmSymbols_congr hcfg, and_self]

/-- The span of every layout lies within a complete header of a valid configuration (R34, R35, R112). -/
theorem hdrSpan_le_htgt {p : Params} {c : CfgRegs} (hv : c.valid p = true) : hdrSpan c ≤ c.htgt := by
  obtain ⟨-, -, ⟨hb, -⟩, -, -, -, -, hfit, -⟩ := CfgRegs.valid_iff.mp hv
  have hunits : c.variant.usesUnits = true → unitSpan c.bps.toNat ≤ c.hdrUnits.toNat * c.bps.toNat := fun hu =>
    (unitSpan_le_minUnits_mul hb).trans (Nat.mul_le_mul_right _ (by simpa [CfgRegs.unitsFit, hu] using hfit))
  cases hvar : c.variant <;> simp only [hdrSpan, CfgRegs.htgt, hvar, Variant.usesUnits] at hunits ⊢
  case default | counter | crc => exact le_rfl
  case variableBits | ofdm => exact hunits trivial

/-! ## The decode path of one state in another -/

/-- The state `x` with its decode path replaced by `v` (R78). -/
def State.withDecodePath (v : DecodeView) (x : State) : State :=
  { x with
    params := v.params
    cfg := v.cfg
    fsm := v.fsm
    dataReg := v.dataReg
    hrBits := v.hrBits
    hrLen := v.hrLen
    nskip := v.nskip
    payloadRemain := v.payloadRemain
    recOut := v.recOut }

@[simp] theorem State.decodeView_withDecodePath (v : DecodeView) (x : State) : (x.withDecodePath v).decodeView = v := rfl
@[simp] theorem State.withDecodePath_decodeView (s : State) : s.withDecodePath s.decodeView = s := rfl
@[simp] theorem State.withDecodePath_respOut (v : DecodeView) (x : State) : (x.withDecodePath v).respOut = x.respOut := rfl

/-- The empty-code move works on the decode path alone (R125). -/
theorem emptyCodeMove_withDecodePath (s x : State) :
    emptyCodeMove (x.withDecodePath s.decodeView) = x.withDecodePath (emptyCodeMove s).decodeView := by
  by_cases h : s.fsm = .syncSearch ∧ s.cfg.effL = 0
  · rw [emptyCodeMove_of_empty h.1 h.2]
    exact emptyCodeMove_of_empty h.1 h.2
  · rw [emptyCodeMove_of_not h]
    exact emptyCodeMove_of_not h

/-- A search bit works on the decode path alone (R171). -/
theorem searchBit_withDecodePath (b : Bool) (s x : State) :
    searchBit b (x.withDecodePath s.decodeView) = x.withDecodePath (searchBit b s).decodeView := by
  have hmatch : (corrStep b (x.withDecodePath s.decodeView)).2 = (corrStep b s).2 := rfl
  unfold searchBit
  rw [hmatch]
  split <;> rfl

/-- A payload bit works on the decode path alone (R174). -/
theorem payloadBit_withDecodePath {s u : State} (h : payloadBit s = .ok u) (x : State) :
    payloadBit (x.withDecodePath s.decodeView) = .ok (x.withDecodePath u.decodeView) := by
  obtain ⟨hne, rfl⟩ := payloadBit_ok h
  exact if_neg hne

theorem startPayload_withDecodePath (n : BitVec 32) (s x : State) :
    (x.withDecodePath s.decodeView).startPayload n = x.withDecodePath (s.startPayload n).decodeView := by
  unfold State.startPayload
  split <;> rfl

theorem judgeHeader_of_invalid {s : State} (h : hdrOk s = .ok false) :
    judgeHeader s = .ok ((s.afterRead (hdrSpan s.cfg)).dropHeader, false) := by
  simp only [judgeHeader, h]

theorem judgeHeader_of_valid {s : State} {len : Half} {r : Record} {n : BitVec 32} (h : hdrOk s = .ok true)
    (hp : hdrPayload s = .ok (len, r)) (hn : payloadCount len s.cfg = .ok n) :
    judgeHeader s = .ok (((s.afterRead (hdrSpan s.cfg)).deliver r).startPayload n, true) := by
  simp only [judgeHeader, h, hp, hn]

/-- Judging a header whose span is written works on the decode path alone: no cell is drawn (R112, R172). -/
theorem judgeHeader_withDecodePath {s u : State} {e : Bool} (hspan : hdrSpan s.cfg ≤ s.hrDefined)
    (h : judgeHeader s = .ok (u, e)) (x : State) :
    judgeHeader (x.withDecodePath s.decodeView) = .ok (x.withDecodePath u.decodeView, e) := by
  have hread : s.afterRead (hdrSpan s.cfg) = s := if_pos hspan
  have hreadx : (x.withDecodePath s.decodeView).afterRead (hdrSpan s.cfg) = x.withDecodePath s.decodeView := if_pos hspan
  obtain ⟨hok, hpayload⟩ := hdrOk_hdrPayload_congr (s := s) (s' := x.withDecodePath s.decodeView) rfl rfl
    fun i hi => hrCell_congr (s := s) (s' := x.withDecodePath s.decodeView) rfl rfl (hi.trans_le hspan)
  obtain ⟨rfl, hh, rfl⟩ | ⟨rfl, hh, len, r, n, hp, hn, rfl⟩ := judgeHeader_cases h
  · rw [judgeHeader_of_invalid (hok.symm.trans hh), hread]
    exact congrArg (fun y : State => Except.ok (y.dropHeader, false)) hreadx
  · rw [judgeHeader_of_valid (hok.symm.trans hh) (hpayload.symm.trans hp) hn, hread, ← startPayload_withDecodePath]
    exact congrArg (fun y : State => Except.ok ((y.deliver r).startPayload n, true)) hreadx

theorem headerBit_of_full {b : Bool} {s u : State} (hi : hrInsert b s = .ok u) (hl : u.hrLen.toNat = u.cfg.htgt) :
    headerBit b s = judgeHeader u.skipBit := by
  simp only [headerBit, hi, hl, if_true]

theorem headerBit_of_not_full {b : Bool} {s u : State} (hi : hrInsert b s = .ok u)
    (hl : u.hrLen.toNat ≠ u.cfg.htgt) : headerBit b s = .ok (u.skipBit, false) := by
  simp only [headerBit, hi, hl, if_false]

/-- A header bit works on the decode path alone, where a complete header fits the register and covers the layout's span
(R112, R170). -/
theorem headerBit_withDecodePath {b : Bool} {s u : State} {e : Bool} (hspan : hdrSpan s.cfg ≤ s.cfg.htgt)
    (hcells : s.cfg.htgt ≤ s.hrBits.length) (h : headerBit b s = .ok (u, e)) (x : State) :
    headerBit b (x.withDecodePath s.decodeView) = .ok (x.withDecodePath u.decodeView, e) := by
  obtain ⟨v, hv, hjudge⟩ := headerBit_cases h
  obtain ⟨hlt, rfl⟩ := hrInsert_ok hv
  have hx := hrInsert_of_lt (b := b) (s := x.withDecodePath s.decodeView) hlt
  obtain ⟨hfull, hj⟩ | ⟨hshort, rfl, rfl⟩ := hjudge
  · have hwritten : hdrSpan s.cfg ≤ min (s.hrLen + 1).toNat (s.hrBits.set s.hrLen.toNat b).length :=
      le_min (hspan.trans_eq hfull.symm) ((hspan.trans hcells).trans_eq List.length_set.symm)
    rw [headerBit_of_full hx hfull]
    exact judgeHeader_withDecodePath hwritten hj x
  · exact headerBit_of_not_full hx hshort

theorem consumeIn_of_syncSearch {b : Bool} {s : State} (hf : s.fsm = .syncSearch) :
    consumeIn b s = .ok (searchBit b s, false) := by
  simp only [consumeIn, hf]

theorem consumeIn_of_haveSync {b : Bool} {s : State} (hf : s.fsm = .haveSync) : consumeIn b s = headerBit b s := by
  simp only [consumeIn, hf]

theorem consumeIn_of_haveHeader {b : Bool} {s u : State} (hf : s.fsm = .haveHeader) (hp : payloadBit s = .ok u) :
    consumeIn b s = .ok (u, false) := by
  simp only [consumeIn, hf, hp]

/-- Within the invariant a consumed bit works on the decode path alone: its effect there and its flag are those it has in
every other state with this decode path, and it touches nothing else (R78, R179). -/
theorem consumeBit_withDecodePath {b : Bool} {s u : State} {e : Bool} (hinv : s.Inv)
    (h : consumeBit b s = .ok (u, e)) (x : State) :
    consumeBit b (x.withDecodePath s.decodeView) = .ok (x.withDecodePath u.decodeView, e) := by
  have hspan : hdrSpan s.cfg ≤ s.cfg.htgt := hdrSpan_le_htgt hinv.config
  have hcells : s.cfg.htgt ≤ s.hrBits.length :=
    ((minUnitsAndShortestHeader.2 _ _ hinv.config).2 hinv.params).trans_eq hinv.cells.symm
  have hmove := emptyCodeMove_frame s
  rw [consumeBit, emptyCodeMove_withDecodePath]
  obtain ⟨hf, rfl, rfl⟩ | ⟨hf, hh⟩ | ⟨hf, rfl, hp⟩ := consumeBit_cases h
  · rw [← searchBit_withDecodePath]
    exact consumeIn_of_syncSearch hf
  · rw [consumeIn_of_haveSync (by exact hf)]
    exact headerBit_withDecodePath (by rwa [hmove]) (by rwa [hmove]) hh x
  · exact consumeIn_of_haveHeader hf (payloadBit_withDecodePath hp x)

/-! ## What `FORMAT` builds -/

/-- The counter layout sends `BPS` and `TX_COUNTER` after the code and the lengths, and counts (R143). -/
theorem counterFormatBytes_ok {len : Word} {s u : State} (h : counterFormatBytes len s = .ok u) :
    ∃ v, codeAndLengths len s = .ok v ∧
      u = { v with hb := v.hb ++ fieldBytes .bits16 2 s.cfg.bps.toNat false
                      ++ fieldBytes .bits16 2 s.txCounter.toNat false
                   txCounter := s.txCounter + 1 } := by
  unfold counterFormatBytes at h
  split at h
  · cases h
  · cases h; exact ⟨_, ‹_›, rfl⟩

/-- A VariableBits header is the units of the length, the counter and their CRC (R150). -/
theorem variableBitsFormatBytes_ok {len : Word} {s u : State} (h : variableBitsFormatBytes len s = .ok u) :
    u = { s with hb := s.hb ++ headerUnits s.cfg.bps.toNat s.cfg.hdrUnits.toNat (field12 len) (field12 s.txCounter)
                 txCounter := counterAfter12 (field12 s.txCounter) } := by
  unfold variableBitsFormatBytes at h
  split at h
  · cases h
  · obtain ⟨-, rfl⟩ := unitWidth_ok ‹_›
    simp only [addUnits_eq] at h
    cases h
    rfl

/-- An OFDM header is a scrambled VariableBits header (R154). -/
theorem ofdmFormatBytes_ok {len : Word} {s u : State} (h : ofdmFormatBytes len s = .ok u) :
    ∃ v, variableBitsFormatBytes len s = .ok v ∧ u = v.scramble s.cfg.bps.toNat := by
  unfold ofdmFormatBytes at h
  split at h
  · cases h
  · obtain ⟨-, rfl, -⟩ := scrambledWidth_ok ‹_›
    split at h
    · cases h
    · cases h; exact ⟨_, ‹_›, rfl⟩

/-- What a layout writes and counts depends on the configuration, the parameters, `TX_COUNTER` and the buffer alone (R78). -/
theorem formatBytes_congr {len : Word} {s s' u u' : State} (hparams : s.params = s'.params) (hcfg : s.cfg = s'.cfg)
    (htx : s.txCounter = s'.txCounter) (hhb : s.hb = s'.hb) (h : formatBytes len s = .ok u)
    (h' : formatBytes len s' = .ok u') : u.hb = u'.hb ∧ u.txCounter = u'.txCounter := by
  cases hv : s.cfg.variant <;> have hv' := hcfg ▸ hv <;> simp only [formatBytes, hv, hv'] at h h'
  case default =>
    obtain ⟨-, rfl⟩ := codeAndLengths_ok h
    obtain ⟨-, rfl⟩ := codeAndLengths_ok h'
    simp only [hcfg, htx, hhb, and_self]
  case counter =>
    obtain ⟨v, hc, rfl⟩ := counterFormatBytes_ok h
    obtain ⟨v', hc', rfl⟩ := counterFormatBytes_ok h'
    obtain ⟨-, rfl⟩ := codeAndLengths_ok hc
    obtain ⟨-, rfl⟩ := codeAndLengths_ok hc'
    simp only [hcfg, htx, hhb, and_self]
  case crc =>
    cases h
    cases h'
    simp only [crcFormatBytes, State.addField_hb, hhb, htx, and_self]
  case variableBits =>
    rw [variableBitsFormatBytes_ok h, variableBitsFormatBytes_ok h']
    simp only [hcfg, htx, hhb, and_self]
  case ofdm =>
    obtain ⟨v, hw, rfl⟩ := ofdmFormatBytes_ok h
    obtain ⟨v', hw', rfl⟩ := ofdmFormatBytes_ok h'
    rw [variableBitsFormatBytes_ok hw, variableBitsFormatBytes_ok hw']
    simp only [State.scramble, hparams, hcfg, htx, hhb, and_self]

theorem formatCommand_of_refused {len : Word} {s : State} {st : Status} (hc : formatCheck len s.cfg = some st) :
    formatCommand len s = .next (s.fail st) := by
  simp only [formatCommand, hc]

/-- A `FORMAT` that passes its checks emits a header and answers its length in bytes (R160). -/
theorem formatCommand_of_accepted {len : Word} {s u : State} (hc : formatCheck len s.cfg = none)
    (h : formatCommand len s = .next u) :
    ∃ v, formatBytes len s.hbClear = .ok v ∧
      u = State.respond .ok (BitVec.ofNat 64 s.cfg.headerNbytes)
        { s with hb := [], hdrOut := s.hdrOut ++ v.hb.take s.cfg.headerNbytes, txCounter := v.txCounter } := by
  simp only [formatCommand, hc] at h
  split at h
  · cases h
  · cases h
    obtain ⟨v, hv, -, rfl⟩ := buildHeader_ok ‹_›
    exact ⟨v, hv, rfl⟩

/-- What an ungated `FORMAT` emits, counts and answers depends on the configuration, the parameters and `TX_COUNTER` alone
(R78, R160). -/
theorem formatCommand_congr {len : Word} {s s' u u' : State} (hparams : s.params = s'.params) (hcfg : s.cfg = s'.cfg)
    (htx : s.txCounter = s'.txCounter) (h : formatCommand len s = .next u) (h' : formatCommand len s' = .next u') :
    ∃ bytes r, u.hdrOut = s.hdrOut ++ bytes ∧ u'.hdrOut = s'.hdrOut ++ bytes
      ∧ u.respOut = s.respOut ++ [r] ∧ u'.respOut = s'.respOut ++ [r] ∧ u.txCounter = u'.txCounter := by
  cases hc : formatCheck len s.cfg with
  | some st =>
    cases h.symm.trans (formatCommand_of_refused hc)
    cases h'.symm.trans (formatCommand_of_refused (hcfg ▸ hc))
    exact ⟨[], ⟨st, 0⟩, (List.append_nil _).symm, (List.append_nil _).symm, rfl, rfl, htx⟩
  | none =>
    obtain ⟨v, hv, rfl⟩ := formatCommand_of_accepted hc h
    obtain ⟨v', hv', rfl⟩ := formatCommand_of_accepted (hcfg ▸ hc) h'
    obtain ⟨hhb, hcount⟩ := formatBytes_congr (s := s.hbClear) (s' := s'.hbClear) hparams hcfg htx rfl hv hv'
    exact ⟨v.hb.take s.cfg.headerNbytes, ⟨.ok, BitVec.ofNat 64 s.cfg.headerNbytes⟩, rfl, by rw [hhb, hcfg]; rfl, rfl,
      by rw [hcfg]; rfl, hcount⟩

/-! ## What leaves the decode path alone -/

/-- Of the commands, only the resets, the configuration commands and the pushes touch the decode path (R71, R78). -/
theorem CommandEffect.decodeView_eq {i : Instr} {s u : State} (h : CommandEffect s i u) (hr : i ≠ .reset)
    (hs : i ≠ .syncReset) (hc : ¬ i.IsConfig) (hb : ∀ b, i ≠ .pushBit b) (hx : ∀ x, i ≠ .pushSoft x) :
    u.decodeView = s.decodeView := by
  cases h with
  | reset => exact absurd rfl hr
  | syncReset => exact absurd rfl hs
  | configured hi => exact absurd hi hc
  | pushed hi =>
    obtain rfl | ⟨x, rfl, -⟩ := hi
    · exact absurd rfl (hb _)
    · exact absurd rfl (hx _)
  | nop | failed => rfl
  | readReg => rw [afterReadReg_frame]; rfl
  | formatted _ _ hh =>
    obtain ⟨v, -, -, rfl⟩ := buildHeader_ok hh
    rfl

/-! ## One step and one push -/

/-- A step with a command on the port takes it and runs what it decodes to (R74). -/
theorem step_of_decode {s : State} {c : Command} {rest : List Command} {i : Instr} (hs : s.cmdIn = c :: rest)
    (hd : decode c = .ok i) : step s = exec i { s with cmdIn := rest } := by
  simp only [step, takeCommand_cons hs, hd]

/-- A step with no command on the port is idle (R229). -/
theorem step_of_idle {s : State} (hs : s.cmdIn = []) : step s = .next s := by
  simp only [step, takeCommand_nil hs]

/-- A push with `FAULT = 0` consumes its bit and answers its flag (R176). -/
theorem exec_pushBit_next {b : Bool} {s u : State} (hf : s.fault = false) (h : exec (.pushBit b) s = .next u) :
    ∃ v e, consumeBit b s = .ok (v, e) ∧ u = v.respond .ok (flagWord e) :=
  pushStream_next ((gate_open hf).symm.trans h)

/-! ## The obligations on steps and on independence -/

/-- Settles O33: none of the three is among the commands that touch the decode path. -/
theorem formatAndReadsLeaveTheDecodePath : Obligations.FormatAndReadsLeaveTheDecodePath := by
  rintro i s u (rfl | ⟨L, rfl⟩ | ⟨r, rfl⟩) h
  all_goals
    exact (exec_effect rfl h).decodeView_eq (by nofun) (by nofun)
      (Instr.not_isConfig_of_encode rfl (by decide)) (by nofun) (by nofun)

/-- Settles O34: the second state of a push is the first one's decode path in other surroundings
(`consumeBit_withDecodePath`); for `FORMAT`, by `formatCommand_congr`. -/
theorem encodeAndDecodeDoNotInterfere : Obligations.EncodeAndDecodeDoNotInterfere := by
  refine ⟨fun b s s' u u' hinv _ hf hf' hview h h' => ?_, fun L s s' u u' hf hf' hparams hcfg htx h h' => ?_⟩
  · obtain ⟨v, e, hv, rfl⟩ := exec_pushBit_next hf h
    obtain ⟨v', e', hv', rfl⟩ := exec_pushBit_next hf' h'
    have hown : v = s.withDecodePath v.decodeView := by
      simpa using hv.symm.trans (consumeBit_withDecodePath hinv hv s)
    have hother : consumeBit b s' = .ok (s'.withDecodePath v.decodeView, e) := by
      simpa [hview] using consumeBit_withDecodePath hinv hv s'
    cases hv'.symm.trans hother
    rw [hown]
    exact ⟨rfl, by simp⟩
  · obtain ⟨bytes, r, hout, hout', hresp, hresp', hcount⟩ := formatCommand_congr hparams hcfg htx
      ((gate_open hf).symm.trans h) ((gate_open hf').symm.trans h')
    exact ⟨by rw [hout, hout', List.drop_left, List.drop_left], hcount,
      by rw [hresp, hresp', List.drop_left, List.drop_left]⟩

/-- Settles O1: `step_of_decode` and `step_of_idle`. -/
theorem stepRunsTheDecodedCommand : Obligations.StepRunsTheDecodedCommand :=
  ⟨fun _ _ _ _ hs hd => step_of_decode hs hd, fun _ hs => step_of_idle hs⟩

end Sys2Proof.Machine
end

section
/-! SUPPORT. The encoding of commands: the fields of a command, the opcode map of R85 as a relation between a command and an
instruction, which both the decoder and the encoder follow, the one response of every command, and the statements on
encoding that follow. -/

namespace Sys2Proof

/-! ## The fields of a command -/

/-- The `ARG` of a command made from its fields (R81). -/
@[simp] theorem Command.arg_ofFields (op arg : Byte) (data : Word) : (Command.ofFields op arg data).arg = arg := by
  ext i hi
  simp only [Command.arg, Command.ofFields, BitVec.getElem_extractLsb', BitVec.getLsbD_append]
  simp [hi]

@[simp] theorem Command.data_ofFields (op arg : Byte) (data : Word) : (Command.ofFields op arg data).data = data := rfl

/-- The low 32 bits of `DATA` are the operand of `PUSH_SOFT` (R82). -/
@[simp] theorem Command.soft_ofFields (op arg : Byte) (x : BitVec 32) :
    (Command.ofFields op arg (x.setWidth 64)).soft = x := by
  ext i hi
  simp [Command.soft, BitVec.getLsbD_eq_getElem hi, show i < 64 by omega]

/-- A command word is its two fields (R81). -/
theorem Command.cw_ofFields {c : Command} {op arg : Byte} (hop : c.op = op) (harg : c.arg = arg) (data : Word) :
    (Command.ofFields op arg data).cw = c.cw := by
  subst hop harg
  exact (BitVec.extractLsb'_append_extractLsb'_eq_extractLsb' (x := c.cw) rfl).trans BitVec.extractLsb'_eq_self

/-- An opcode is named by its number (R81). -/
theorem Command.op_eq_of_toNat {c : Command} {n : Nat} (h : c.op.toNat = n) : c.op = BitVec.ofNat 8 n := by
  rw [← h, BitVec.ofNat_toNat, BitVec.setWidth_eq]

/-! ## The bit of `PUSH_BIT` in `ARG` -/

/-- The `ARG` of `PUSH_BIT b`: the bit in `ARG[0]` under seven zeros (R85, R176). -/
def bitArg (b : Bool) : Byte := 0x00#7 ++ BitVec.ofBool b

@[simp] theorem bitArg_toNat (b : Bool) : (bitArg b).toNat = b.toNat := by cases b <;> rfl

theorem ofNat_toNat_eq_bitArg (b : Bool) : BitVec.ofNat 8 b.toNat = bitArg b := by cases b <;> rfl

/-- The reserved bits of `ARG` are zero exactly when it is a bit's `ARG` (R85). -/
theorem extractLsb'_reserved_iff {a : Byte} {b : Bool} :
    a.extractLsb' 1 7 = 0x00#7 ∧ a.getLsbD 0 = b ↔ a = bitArg b := by
  have hsplit : a.extractLsb' 1 7 ++ a.extractLsb' 0 1 = a :=
    (BitVec.extractLsb'_append_extractLsb'_eq_extractLsb' (x := a) rfl).trans BitVec.extractLsb'_eq_self
  have hlow : a.extractLsb' 0 1 = BitVec.ofBool (a.getLsbD 0) := by
    ext i hi
    simp [show i = 0 by omega]
  constructor
  · rintro ⟨hhigh, rfl⟩
    rw [bitArg, ← hhigh, ← hlow, hsplit]
  · rintro rfl
    cases b <;> decide

/-- A value below 2 is a bit's `ARG`. -/
theorem exists_bitArg {a : Byte} (h : a.toNat < 2) : ∃ b, a = bitArg b := by
  obtain h | h : a.toNat = 0 ∨ a.toNat = 1 := by omega
  · exact ⟨false, BitVec.eq_of_toNat_eq h⟩
  · exact ⟨true, BitVec.eq_of_toNat_eq h⟩

/-! ## The opcode map -/

/-- The opcode map of R85, a constructor for each row: which instruction a command carries, by its opcode, its `ARG` and the
part of `DATA` that R82 does not ignore. -/
inductive OpcodeRow (c : Command) : Instr → Prop where
  | nop (hop : c.op = 0x00#8) (harg : c.arg = 0#8) : OpcodeRow c .nop
  | reset (hop : c.op = 0x01#8) (harg : c.arg = 0#8) : OpcodeRow c .reset
  | syncReset (hop : c.op = 0x02#8) (harg : c.arg = 0#8) : OpcodeRow c .syncReset
  | cfgVariant {v : Byte} (hop : c.op = 0x10#8) (harg : c.arg = v) : OpcodeRow c (.cfgVariant v)
  | cfgAccessCode {n : Byte} {p : Word} (hop : c.op = 0x11#8) (harg : c.arg = n) (hdata : c.data = p) :
      OpcodeRow c (.cfgAccessCode n p)
  | cfgThreshold {t : Byte} (hop : c.op = 0x12#8) (harg : c.arg = t) : OpcodeRow c (.cfgThreshold t)
  | cfgBps {b : Byte} (hop : c.op = 0x13#8) (harg : c.arg = b) : OpcodeRow c (.cfgBps b)
  | cfgHdrUnits {u : Word} (hop : c.op = 0x14#8) (harg : c.arg = 0#8) (hdata : c.data = u) : OpcodeRow c (.cfgHdrUnits u)
  | cfgPayloadBps {p : Byte} (hop : c.op = 0x15#8) (harg : c.arg = p) : OpcodeRow c (.cfgPayloadBps p)
  | cfgOccLen {n : Byte} (hop : c.op = 0x16#8) (harg : c.arg = n) : OpcodeRow c (.cfgOccLen n)
  | cfgOccEntry {i : Byte} {w : Word} (hop : c.op = 0x17#8) (harg : c.arg = i) (hdata : c.data = w) :
      OpcodeRow c (.cfgOccEntry i w)
  | pushBit {b : Bool} (hop : c.op = 0x20#8) (harg : c.arg = bitArg b) : OpcodeRow c (.pushBit b)
  | pushSoft {x : BitVec 32} (hop : c.op = 0x21#8) (harg : c.arg = 0#8) (hdata : c.soft = x) : OpcodeRow c (.pushSoft x)
  | format {len : Word} (hop : c.op = 0x30#8) (harg : c.arg = 0#8) (hdata : c.data = len) : OpcodeRow c (.format len)
  | readReg {r : Byte} (hop : c.op = 0x40#8) (harg : c.arg = r) : OpcodeRow c (.readReg r)

/-- Decoding a command whose `ARG` must be 0 (R85). -/
theorem decodeZeroArg_ok_iff {c : Command} {i j : Instr} : decodeZeroArg c j = .ok i ↔ c.arg = 0#8 ∧ j = i := by
  unfold decodeZeroArg
  split <;> simp [*]

/-- Decoding `PUSH_BIT` (R85, R176). -/
theorem decodePushBit_ok_iff {c : Command} {i : Instr} :
    decodePushBit c = .ok i ↔ ∃ b, c.arg = bitArg b ∧ .pushBit b = i := by
  unfold decodePushBit
  simp only [← extractLsb'_reserved_iff]
  split <;> simp [*]

/-- What decodes does so by a row of the opcode map. -/
theorem OpcodeRow.of_decode {c : Command} {i : Instr} (h : decode c = .ok i) : OpcodeRow c i := by
  unfold decode at h
  obtain ⟨hop, h⟩ | ⟨-, h⟩ := ite_eq_iff.mp h
  · obtain ⟨harg, rfl⟩ := decodeZeroArg_ok_iff.mp h; exact .nop hop harg
  obtain ⟨hop, h⟩ | ⟨-, h⟩ := ite_eq_iff.mp h
  · obtain ⟨harg, rfl⟩ := decodeZeroArg_ok_iff.mp h; exact .reset hop harg
  obtain ⟨hop, h⟩ | ⟨-, h⟩ := ite_eq_iff.mp h
  · obtain ⟨harg, rfl⟩ := decodeZeroArg_ok_iff.mp h; exact .syncReset hop harg
  obtain ⟨hop, h⟩ | ⟨-, h⟩ := ite_eq_iff.mp h
  · cases h; exact .cfgVariant hop rfl
  obtain ⟨hop, h⟩ | ⟨-, h⟩ := ite_eq_iff.mp h
  · cases h; exact .cfgAccessCode hop rfl rfl
  obtain ⟨hop, h⟩ | ⟨-, h⟩ := ite_eq_iff.mp h
  · cases h; exact .cfgThreshold hop rfl
  obtain ⟨hop, h⟩ | ⟨-, h⟩ := ite_eq_iff.mp h
  · cases h; exact .cfgBps hop rfl
  obtain ⟨hop, h⟩ | ⟨-, h⟩ := ite_eq_iff.mp h
  · obtain ⟨harg, rfl⟩ := decodeZeroArg_ok_iff.mp h; exact .cfgHdrUnits hop harg rfl
  obtain ⟨hop, h⟩ | ⟨-, h⟩ := ite_eq_iff.mp h
  · cases h; exact .cfgPayloadBps hop rfl
  obtain ⟨hop, h⟩ | ⟨-, h⟩ := ite_eq_iff.mp h
  · cases h; exact .cfgOccLen hop rfl
  obtain ⟨hop, h⟩ | ⟨-, h⟩ := ite_eq_iff.mp h
  · cases h; exact .cfgOccEntry hop rfl rfl
  obtain ⟨hop, h⟩ | ⟨-, h⟩ := ite_eq_iff.mp h
  · obtain ⟨b, harg, rfl⟩ := decodePushBit_ok_iff.mp h; exact .pushBit hop harg
  obtain ⟨hop, h⟩ | ⟨-, h⟩ := ite_eq_iff.mp h
  · obtain ⟨harg, rfl⟩ := decodeZeroArg_ok_iff.mp h; exact .pushSoft hop harg rfl
  obtain ⟨hop, h⟩ | ⟨-, h⟩ := ite_eq_iff.mp h
  · obtain ⟨harg, rfl⟩ := decodeZeroArg_ok_iff.mp h; exact .format hop harg rfl
  obtain ⟨hop, h⟩ | ⟨-, h⟩ := ite_eq_iff.mp h
  · cases h; exact .readReg hop rfl
  cases h

/-- Every row of the opcode map decodes. -/
theorem OpcodeRow.decode_eq {c : Command} {i : Instr} (h : OpcodeRow c i) : decode c = .ok i := by
  cases h with
  | nop hop harg | reset hop harg | syncReset hop harg => simp [decode, hop, decodeZeroArg_ok_iff, harg]
  | cfgHdrUnits hop harg hdata | pushSoft hop harg hdata | format hop harg hdata =>
    simp [decode, hop, decodeZeroArg_ok_iff, harg, hdata]
  | cfgVariant hop harg | cfgThreshold hop harg | cfgBps hop harg | cfgPayloadBps hop harg | cfgOccLen hop harg
  | readReg hop harg => simp [decode, hop, harg]
  | cfgAccessCode hop harg hdata | cfgOccEntry hop harg hdata => simp [decode, hop, harg, hdata]
  | pushBit hop harg => simpa [decode, hop, decodePushBit_ok_iff] using harg

/-- The decoder is the opcode map (R85, R86). -/
theorem decode_ok_iff {c : Command} {i : Instr} : decode c = .ok i ↔ OpcodeRow c i :=
  ⟨.of_decode, OpcodeRow.decode_eq⟩

/-- A command is refused exactly when no row of the opcode map is its own (R86). -/
theorem decode_refused_iff {c : Command} : (∃ e, decode c = .error e) ↔ ∀ i, ¬ OpcodeRow c i := by
  simp only [← decode_ok_iff]
  cases decode c <;> simp

/-- The rows of the opcode map are those of the 15 commands (R85, R91). -/
theorem OpcodeRow.isCommand {c : Command} {i : Instr} (h : OpcodeRow c i) : i.isCommand = true := by
  cases h <;> rfl

/-- R82 gives the operands of a command no range. -/
theorem Instr.wellFormed_of_isCommand {i : Instr} (h : i.isCommand = true) : i.wellFormed = true := by
  cases i with
  | hbAddField | hbAddFieldBigEndian | hrExtract | hrExtractLsb | fail => cases h
  | _ => rfl

/-- The encoding of a command lies in the command's own row. -/
theorem exists_encode_opcodeRow {i : Instr} (h : i.isCommand = true) : ∃ c, encode i = some c ∧ OpcodeRow c i := by
  cases i with
  | nop => exact ⟨_, rfl, .nop (by simp) (by simp)⟩
  | reset => exact ⟨_, rfl, .reset (by simp) (by simp)⟩
  | syncReset => exact ⟨_, rfl, .syncReset (by simp) (by simp)⟩
  | cfgVariant v => exact ⟨_, rfl, .cfgVariant (by simp) (by simp)⟩
  | cfgAccessCode n p => exact ⟨_, rfl, .cfgAccessCode (by simp) (by simp) rfl⟩
  | cfgThreshold t => exact ⟨_, rfl, .cfgThreshold (by simp) (by simp)⟩
  | cfgBps b => exact ⟨_, rfl, .cfgBps (by simp) (by simp)⟩
  | cfgHdrUnits u => exact ⟨_, rfl, .cfgHdrUnits (by simp) (by simp) rfl⟩
  | cfgPayloadBps p => exact ⟨_, rfl, .cfgPayloadBps (by simp) (by simp)⟩
  | cfgOccLen n => exact ⟨_, rfl, .cfgOccLen (by simp) (by simp)⟩
  | cfgOccEntry i w => exact ⟨_, rfl, .cfgOccEntry (by simp) (by simp) rfl⟩
  | pushBit b => exact ⟨_, rfl, .pushBit (by simp) (by simp [bitArg])⟩
  | pushSoft x => exact ⟨_, rfl, .pushSoft (by simp) (by simp) (by simp)⟩
  | format len => exact ⟨_, rfl, .format (by simp) (by simp) rfl⟩
  | readReg r => exact ⟨_, rfl, .readReg (by simp) (by simp)⟩
  | _ => cases h

/-- The instruction of a row is encoded with the command word of the row. -/
theorem OpcodeRow.encode_cw {c : Command} {i : Instr} (h : OpcodeRow c i) : ∃ c', encode i = some c' ∧ c'.cw = c.cw := by
  cases h <;> exact ⟨_, rfl, Command.cw_ofFields ‹_› ‹_› _⟩

/-! ## The obligations on encoding -/

/-- Settles O3: a command's encoding lies in the command's row, and rows decode. -/
theorem encodedCommandDecodesToItself : Obligations.EncodedCommandDecodesToItself := by
  intro i hi
  obtain ⟨c, hc, hrow⟩ := exists_encode_opcodeRow hi
  exact ⟨c, hc, hrow.decode_eq⟩

/-- Settles O4: what decodes is the instruction of a row, which is a command and is encoded with the row's word. -/
theorem decodedCommandEncodesToItsWord : Obligations.DecodedCommandEncodesToItsWord := by
  intro c i h
  have hrow : OpcodeRow c i := .of_decode h
  exact ⟨hrow.isCommand, Instr.wellFormed_of_isCommand hrow.isCommand, hrow.encode_cw⟩

/-- Settles O5: where none of the three reasons holds, the opcode is that of a row and `ARG` is as the row demands; and no
row allows any of the three. -/
theorem decodeRefusesExactlyUnassignedAndReserved : Obligations.DecodeRefusesExactlyUnassignedAndReserved := by
  intro c
  rw [decode_refused_iff]
  constructor
  · intro hno
    by_contra hreasons
    simp only [not_or, not_and, not_not, not_le] at hreasons
    obtain ⟨hassigned, hzero, hbit⟩ := hreasons
    simp only [List.mem_cons, List.not_mem_nil, or_false] at hassigned
    obtain h | h | h | h | h | h | h | h | h | h | h | h | h | h | h := hassigned
    · exact hno _ (.nop (Command.op_eq_of_toNat h) (hzero (by simp [h])))
    · exact hno _ (.reset (Command.op_eq_of_toNat h) (hzero (by simp [h])))
    · exact hno _ (.syncReset (Command.op_eq_of_toNat h) (hzero (by simp [h])))
    · exact hno _ (.cfgVariant (Command.op_eq_of_toNat h) rfl)
    · exact hno _ (.cfgAccessCode (Command.op_eq_of_toNat h) rfl rfl)
    · exact hno _ (.cfgThreshold (Command.op_eq_of_toNat h) rfl)
    · exact hno _ (.cfgBps (Command.op_eq_of_toNat h) rfl)
    · exact hno _ (.cfgHdrUnits (Command.op_eq_of_toNat h) (hzero (by simp [h])) rfl)
    · exact hno _ (.cfgPayloadBps (Command.op_eq_of_toNat h) rfl)
    · exact hno _ (.cfgOccLen (Command.op_eq_of_toNat h) rfl)
    · exact hno _ (.cfgOccEntry (Command.op_eq_of_toNat h) rfl rfl)
    · obtain ⟨b, hb⟩ := exists_bitArg (hbit h)
      exact hno _ (.pushBit (Command.op_eq_of_toNat h) hb)
    · exact hno _ (.pushSoft (Command.op_eq_of_toNat h) (hzero (by simp [h])) rfl)
    · exact hno _ (.format (Command.op_eq_of_toNat h) (hzero (by simp [h])) rfl)
    · exact hno _ (.readReg (Command.op_eq_of_toNat h) rfl)
  · intro hreasons i hrow
    cases hrow with
    | cfgVariant hop | cfgAccessCode hop | cfgThreshold hop | cfgBps hop | cfgPayloadBps hop | cfgOccLen hop
    | cfgOccEntry hop | readReg hop => simp [hop] at hreasons
    | nop hop harg | reset hop harg | syncReset hop harg | cfgHdrUnits hop harg | pushSoft hop harg | format hop harg =>
      simp [hop, harg] at hreasons
    | @pushBit b hop harg =>
      have hle : 2 ≤ b.toNat := by simpa [hop, harg] using hreasons
      exact absurd (Bool.toNat_lt b) hle.not_gt

/-- Settles O6: each accepted word lies in its row; the two refused ones meet check 2 and check 1. -/
theorem sampleWordsDecode : Obligations.SampleWordsDecode :=
  ⟨decode_ok_iff.mpr (.nop rfl rfl), decode_ok_iff.mpr (.reset rfl rfl), decode_ok_iff.mpr (.cfgAccessCode rfl rfl rfl),
    decode_ok_iff.mpr (.pushBit rfl rfl), decode_ok_iff.mpr (.pushSoft rfl rfl rfl), decode_ok_iff.mpr (.format rfl rfl rfl),
    decode_ok_iff.mpr (.readReg rfl rfl), rfl, rfl⟩

/-! ## Pseudo-commands -/

/-- The commands of a bit list decode to its pushes, in order (R89). -/
theorem Asm.pushBits_map_decode (bits : List Bool) :
    (Asm.pushBits bits).map decode = bits.map fun b => .ok (.pushBit b) := by
  rw [Asm.pushBits, List.map_map]
  refine List.map_congr_left fun b _ => OpcodeRow.decode_eq (.pushBit ?_ ?_)
  · simp [Asm.command]
  · simp [Asm.command, ofNat_toNat_eq_bitArg]

/-- Settles O60: both pseudo-commands push a bit list. -/
theorem pseudoPushesDecodeToTheStream : Obligations.PseudoPushesDecodeToTheStream :=
  ⟨fun _ => Asm.pushBits_map_decode _, fun _ _ => Asm.pushBits_map_decode _⟩

end Sys2Proof

namespace Sys2Proof.Machine

/-! ## The response of a command -/

/-- A step with a refused word on the port takes it and answers `ILLEGAL` (R87). -/
theorem step_of_refused {s : State} {c : Command} {rest : List Command} {e : DecodeError} (hs : s.cmdIn = c :: rest)
    (hd : decode c = .error e) : step s = .next (State.fail .illegal { s with cmdIn := rest }) := by
  simp only [step, takeCommand_cons hs, hd, State.rejectCommand]

/-- `u` comes from `s` by one appended response, with `RDATA = 0` unless it is `OK`, and with the pending commands kept
(R83). -/
def RespondsOnce (s u : State) : Prop :=
  u.cmdIn = s.cmdIn ∧ ∃ r : Response, u.respOut = s.respOut ++ [r] ∧ (r.status ≠ .ok → r.rdata = 0)

theorem respond_ok_respondsOnce {s u : State} (hcmd : u.cmdIn = s.cmdIn) (hresp : u.respOut = s.respOut) (v : Word) :
    RespondsOnce s (u.respond .ok v) :=
  ⟨hcmd, ⟨.ok, v⟩, by rw [State.respond_respOut, hresp], fun h => absurd rfl h⟩

theorem fail_respondsOnce (st : Status) (s : State) : RespondsOnce s (s.fail st) := ⟨rfl, ⟨st, 0⟩, rfl, fun _ => rfl⟩

/-- Every kind of effect makes exactly one response and leaves the pending commands alone (R83). -/
theorem CommandEffect.respondsOnce {i : Instr} {s u : State} (h : CommandEffect s i u) : RespondsOnce s u := by
  cases h with
  | nop | reset | syncReset | configured => exact respond_ok_respondsOnce rfl rfl _
  | readReg => rw [afterReadReg_frame]; exact respond_ok_respondsOnce rfl rfl _
  | pushed _ _ hc =>
    obtain ⟨rs, -, hu⟩ := consumeBit_frame hc
    rw [hu]; exact respond_ok_respondsOnce rfl rfl _
  | formatted _ _ hb =>
    obtain ⟨v, -, -, rfl⟩ := buildHeader_ok hb
    exact respond_ok_respondsOnce rfl rfl _
  | failed => exact fail_respondsOnce _ s

/-- Settles O2: `step_of_refused`; `ILLEGAL` does not set `FAULT`. -/
theorem illegalWordAnswersIllegal : Obligations.IllegalWordAnswersIllegal := by
  intro s c rest e hs hd
  rw [step_of_refused hs hd, State.fail_eq]
  simp [Status.code]

/-- Settles O7: a refused word fails with `ILLEGAL`; a decoded one is a command, whose effect responds once. -/
theorem everyCommandGetsExactlyOneResponse : Obligations.EveryCommandGetsExactlyOneResponse := by
  intro s t c rest hs h
  have honce : RespondsOnce { s with cmdIn := rest } t := by
    cases hd : decode c with
    | error e =>
      rw [step_of_refused hs hd] at h
      cases h
      exact fail_respondsOnce _ _
    | ok i =>
      rw [step_of_decode hs hd] at h
      exact (exec_effect (OpcodeRow.of_decode hd).isCommand h).respondsOnce
  exact honce

end Sys2Proof.Machine
end

section
/-! SUPPORT. The bytes of a header-buffer field (R101, R102), one by one, and the header-buffer primitives as instructions. -/

namespace Sys2Proof

/-! ## The bytes of a number -/

theorem bytesLe_getElem? {w i : Nat} (hi : i < w) (v : Nat) :
    (bytesLe w v)[i]? = some (BitVec.ofNat 8 (v / 2 ^ (8 * i))) := by
  induction w generalizing v i with
  | zero => omega
  | succ w ih =>
    cases i with
    | zero => simp [bytesLe]
    | succ i =>
      have hpow : 256 * 2 ^ (8 * i) = 2 ^ (8 * (i + 1)) := by rw [Nat.mul_succ, Nat.pow_add]; omega
      rw [bytesLe, List.getElem?_cons_succ, ih (by omega), Nat.div_div_eq_div_mul, hpow]

theorem bytesBe_getElem? {w i : Nat} (hi : i < w) (v : Nat) :
    (bytesBe w v)[i]? = some (BitVec.ofNat 8 (v / 2 ^ (8 * (w - 1 - i)))) := by
  rw [bytesBe, List.getElem?_reverse (by rwa [Machine.bytesLe_length]), Machine.bytesLe_length,
    bytesLe_getElem? (by omega)]

/-- Truncating a value to `w` bytes keeps each of its low `w` bytes. -/
theorem byte_of_truncated {w i : Nat} (hi : i < w) (v : Nat) :
    BitVec.ofNat 8 (v % 2 ^ (8 * w) / 2 ^ (8 * i)) = BitVec.ofNat 8 (v / 2 ^ (8 * i)) := by
  apply BitVec.eq_of_getLsbD_eq
  intro k hk
  have hin : k + 8 * i < 8 * w := by omega
  simp [BitVec.getLsbD_ofNat, Nat.testBit_div_two_pow, Nat.testBit_mod_two_pow, hin]

end Sys2Proof

namespace Sys2Proof.Machine

/-! ## The bytes of a field -/

/-- For a width in range the truncation to the overload is absorbed by the one to the field, and the 8-bit overload, which
never swaps, is the big-endian form of at most one byte (R101). -/
theorem fieldBytes_eq {n : Overload} {w : Nat} (hw : w ≤ n.bytes) (v : Nat) (bs : Bool) :
    fieldBytes n w v bs =
      if bs = true ∧ n ≠ .bits8 then bytesLe w (v % 2 ^ (8 * w)) else bytesBe w (v % 2 ^ (8 * w)) := by
  have htrunc : v % 2 ^ (8 * n.bytes) % 2 ^ (8 * w) = v % 2 ^ (8 * w) :=
    Nat.mod_mod_of_dvd v (Nat.pow_dvd_pow 2 (Nat.mul_le_mul_left 8 hw))
  cases n with
  | bits8 =>
    have hcases : w = 0 ∨ w = 1 := Nat.le_one_iff_eq_zero_or_eq_one.mp hw
    simp only [fieldBytes, htrunc]
    obtain rfl | rfl := hcases <;> simp [bytesBe, bytesLe]
  | bits16 | bits32 | bits64 => simp [fieldBytes, htrunc]

theorem fieldBytes_getElem? {n : Overload} {w i : Nat} (hw : w ≤ n.bytes) (hi : i < w) (v : Nat) (bs : Bool) :
    (fieldBytes n w v bs)[i]? = some (BitVec.ofNat 8
      (if bs = true ∧ n ≠ .bits8 then v / 2 ^ (8 * i) else v / 2 ^ (8 * (w - 1 - i)))) := by
  rw [fieldBytes_eq hw]
  split
  · rw [bytesLe_getElem? hi, byte_of_truncated hi]
  · rw [bytesBe_getElem? hi, byte_of_truncated (by omega)]

/-! ## The header-buffer primitives -/

theorem fieldWidthOk_iff {n : Overload} {w : Nat} : fieldWidthOk n w = true ↔ w ≤ n.bytes := decide_eq_true_iff

/-- The big-endian row is `HBAddField` with `bs = 1`, in range or not (R102). -/
theorem exec_hbAddFieldBigEndian (n : Overload) (w : Nat) (v : Word) (s : State) :
    exec (.hbAddFieldBigEndian n w v) s = exec (.hbAddField n w v true) s := rfl

theorem exec_hbAddField_of_le {n : Overload} {w : Nat} (hw : w ≤ n.bytes) (v : Word) (bs : Bool) (s : State) :
    exec (.hbAddField n w v bs) s = .next (s.addField n w v.toNat bs) := if_pos (fieldWidthOk_iff.mpr hw)

theorem exec_hbAddField_of_lt {n : Overload} {w : Nat} (hw : n.bytes < w) (v : Word) (bs : Bool) (s : State) :
    exec (.hbAddField n w v bs) s = .refused .illFormed :=
  if_neg fun h => absurd (fieldWidthOk_iff.mp h) (Nat.not_le.mpr hw)

/-- Settles O44: the bytes appended are `fieldBytes`, read one by one; the big-endian row follows from `HBAddField` with
`bs = 1`. -/
theorem headerBufferFields : Obligations.HeaderBufferFields := by
  refine ⟨fun n w v bs s hw => ?_, fun n w v bs s hw => ?_, fun _ => rfl⟩
  · refine ⟨fieldBytes n w v.toNat bs, fieldBytes_length hw, exec_hbAddField_of_le hw v bs s, ?_,
      fun i hi => fieldBytes_getElem? hw hi v.toNat bs⟩
    rintro rfl
    rw [exec_hbAddFieldBigEndian, exec_hbAddField_of_le hw, State.addField]
  · rw [exec_hbAddFieldBigEndian]
    exact ⟨exec_hbAddField_of_lt hw v bs s, exec_hbAddField_of_lt hw v true s⟩

end Sys2Proof.Machine
end

section
/-! SUPPORT. The header register (spec/41_header_register.md): its primitives run alone, bit by bit, and the header bits that a
push stores in it. -/

namespace Sys2Proof

/-! ## Runs of bits as numbers -/

theorem fieldMsb_lt (bits : Nat → Bool) (off w : Nat) : fieldMsb bits off w < 2 ^ w := by
  induction w with
  | zero => exact Nat.one_pos
  | succ w ih =>
    have hbit := Bool.toNat_lt (bits (off + w))
    rw [fieldMsb, Nat.pow_succ]
    omega

theorem fieldLsb_lt (bits : Nat → Bool) (off w : Nat) : fieldLsb bits off w < 2 ^ w := by
  induction w with
  | zero => exact Nat.one_pos
  | succ w ih =>
    have hbit : 2 ^ w * (bits (off + w)).toNat ≤ 2 ^ w :=
      (Nat.mul_le_mul_left _ (Bool.toNat_le _)).trans_eq (Nat.mul_one _)
    rw [fieldLsb, Nat.pow_succ]
    omega

/-- Bit `k` of the number read from `w` bits is the bit received `k`-th: the first bit is the least significant (R113). -/
theorem fieldLsb_testBit (bits : Nat → Bool) (off : Nat) {w k : Nat} (hk : k < w) :
    (fieldLsb bits off w).testBit k = bits (off + k) := by
  induction w with
  | zero => omega
  | succ w ih =>
    rw [fieldLsb, Nat.add_comm, Nat.testBit_two_pow_mul_add _ (fieldLsb_lt bits off w)]
    obtain rfl | hlt := Nat.eq_or_lt_of_le (Nat.le_of_lt_succ hk)
    · rw [if_neg (lt_irrefl k), Nat.sub_self, Nat.testBit_bool_toNat]
      exact Bool.true_and _
    · rw [if_pos hlt, ih hlt]

theorem extractWidthOk_iff {w : Nat} : extractWidthOk w = true ↔ 1 ≤ w ∧ w ≤ 64 := by simp [extractWidthOk]

end Sys2Proof

namespace Sys2Proof.Machine

/-! ## The header-register primitives -/

/-- A defined cell reads as stored (R38, R55). -/
theorem some_hrCell {s : State} {i : Nat} (hi : i < s.hrDefined) : some (s.hrCell i) = s.hrBits[i]? := by
  obtain ⟨hlen, hcell⟩ := lt_min_iff.mp hi
  have hb : s.hrBits[i]? = some s.hrBits[i] := List.getElem?_eq_getElem hcell
  rw [hb, hrCell_stored hlen hb]

theorem hrExtract_lt (off w : Nat) (s : State) : (s.hrExtract off w).toNat < 2 ^ w :=
  (Nat.mod_le _ _).trans_lt (fieldMsb_lt s.hrCell off w)

theorem hrExtractLsb_lt (off w : Nat) (s : State) : (s.hrExtractLsb off w).toNat < 2 ^ w :=
  (Nat.mod_le _ _).trans_lt (fieldLsb_lt s.hrCell off w)

/-- The first cell of an extracted field is its most significant bit (R111). -/
theorem hrExtract_getLsbD {off w i : Nat} (hw : w ≤ 64) (hi : i < w) (s : State) :
    (s.hrExtract off w).getLsbD (w - 1 - i) = s.hrCell (off + i) := by
  rw [State.hrExtract, BitVec.getLsbD_ofNat, fieldMsb_testBit s.hrCell off hi]
  simp [show w - 1 - i < 64 by omega]

/-- The first cell of a field extracted the other way is its least significant bit (R113). -/
theorem hrExtractLsb_getLsbD {off w i : Nat} (hw : w ≤ 64) (hi : i < w) (s : State) :
    (s.hrExtractLsb off w).getLsbD i = s.hrCell (off + i) := by
  rw [State.hrExtractLsb, BitVec.getLsbD_ofNat, fieldLsb_testBit s.hrCell off hi]
  simp [hi.trans_le hw]

theorem hrInsert_of_full {b : Bool} {s : State} (h : s.hrBits.length ≤ s.hrLen.toNat) :
    hrInsert b s = .error .headerRegisterFull := if_neg h.not_gt

theorem exec_hrInsert (b : Bool) (s : State) : exec (.hrInsert b) s = outcome (hrInsert b s) := rfl

theorem exec_hrExtract_of_width {w : Nat} (h : extractWidthOk w = true) (off : Nat) (s : State) :
    exec (.hrExtract off w) s = .next ((s.afterRead (off + w)).returns (.word (s.hrExtract off w))) := if_pos h

theorem exec_hrExtractLsb_of_width {w : Nat} (h : extractWidthOk w = true) (off : Nat) (s : State) :
    exec (.hrExtractLsb off w) s = .next ((s.afterRead (off + w)).returns (.word (s.hrExtractLsb off w))) := if_pos h

/-- Both extractions refuse a width outside their range (log entry 12). -/
theorem exec_extracts_refused {w : Nat} (h : ¬ extractWidthOk w = true) (off : Nat) (s : State) :
    exec (.hrExtract off w) s = .refused .illFormed ∧ exec (.hrExtractLsb off w) s = .refused .illFormed :=
  ⟨if_neg h, if_neg h⟩

/-- Settles O45: the bits of both fields are the cells they were read from, which below `HR.len` read as stored; the draw
counter is that of the one read. -/
theorem headerRegisterInsertClearAndExtracts : Obligations.HeaderRegisterInsertClearAndExtracts := by
  refine ⟨fun b s h => ?_, fun _ => rfl, fun b s h => ?_, fun off w s hw => ?_, fun off w s hlo hhi hlen => ?_⟩
  · rw [exec_hrInsert, hrInsert_of_lt h]; rfl
  · rw [exec_hrInsert, hrInsert_of_full h]; rfl
  · exact exec_extracts_refused (by rw [extractWidthOk_iff]; omega) off s
  · have hw : extractWidthOk w = true := extractWidthOk_iff.mpr ⟨hlo, hhi⟩
    refine ⟨s.hrExtract off w, s.hrExtractLsb off w, (s.afterRead (off + w)).draws, ?_, ?_, hrExtract_lt off w s,
      hrExtractLsb_lt off w s, fun i hi hdef => ?_, fun hread => ?_⟩
    · rw [exec_hrExtract_of_width hw, afterRead_frame]; rfl
    · rw [exec_hrExtractLsb_of_width hw, afterRead_frame]; rfl
    · have hcell : some (s.hrCell (off + i)) = s.hrBits[off + i]? := some_hrCell (lt_min hdef (hdef.trans_le hlen))
      rw [hrExtract_getLsbD hhi hi, hrExtractLsb_getLsbD hhi hi]
      exact ⟨hcell, hcell⟩
    · rw [afterRead_defined hread (hread.trans hlen)]

/-! ## A header bit that does not complete the header -/

theorem consumeBit_of_haveSync {s : State} (hf : s.fsm = .haveSync) (b : Bool) : consumeBit b s = headerBit b s := by
  rw [consumeBit, emptyCodeMove_of_not (by simp [hf]), consumeIn_of_haveSync hf]

/-- With an empty code the first bit of a search is a header bit (R125). -/
theorem consumeBit_of_emptyCode {s : State} (hf : s.fsm = .syncSearch) (he : s.cfg.effL = 0) (b : Bool) :
    consumeBit b s = headerBit b s.sync := by
  rw [consumeBit, emptyCodeMove_of_empty hf he, consumeIn_of_haveSync s.sync_fsm]

/-- A header bit below the target is stored and counted (R110, R170). -/
theorem headerBit_of_short {s : State} (hshort : s.hrLen.toNat + 1 < s.cfg.htgt)
    (hcell : s.hrLen.toNat < s.hrBits.length) (b : Bool) :
    headerBit b s = .ok ({ s with hrBits := s.hrBits.set s.hrLen.toNat b, hrLen := s.hrLen + 1,
                                  nskip := s.nskip + 1 }, false) := by
  have hne : (s.hrLen + 1).toNat ≠ s.cfg.htgt := by bv_omega
  exact headerBit_of_not_full (hrInsert_of_lt hcell) hne

/-- A push with `FAULT = 0` answers the flag of the bit it consumed (R176). -/
theorem exec_pushBit_of_consumeBit {b : Bool} {s u : State} {e : Bool} (hf : s.fault = false)
    (h : consumeBit b s = .ok (u, e)) : exec (.pushBit b) s = .next (u.respond .ok (flagWord e)) := by
  show gate (pushStream b) s = _
  rw [gate_open hf, pushStream, h]

/-- Settles O38: in both cases the bit is a header bit below the target, in the second one of the register as the empty
code's move leaves it. -/
theorem pushedBitWhileCollecting : Obligations.PushedBitWhileCollecting := by
  refine ⟨fun b s hf hfsm hshort hcell => ?_, fun b s hf hfsm hempty htgt hcell => ?_⟩
  · rw [exec_pushBit_of_consumeBit hf ((consumeBit_of_haveSync hfsm b).trans (headerBit_of_short hshort hcell b))]
    rfl
  · rw [exec_pushBit_of_consumeBit hf
      ((consumeBit_of_emptyCode hfsm hempty b).trans (headerBit_of_short (s := s.sync) htgt hcell b))]
    rfl

end Sys2Proof.Machine
end

section
/-! SUPPORT. Progress: within the invariant (R182) no shared operation meets a situation that the spec rules out (R105, R110,
R151, R155, R174), so that every command goes on. -/

namespace Sys2Proof.Machine

/-! ## The occupancy walk -/

/-- The walk that has carried `m` symbols stops at the first symbol that reaches the goal, if its fuel reaches one
(R155). -/
theorem occupancyWalk_of_carried {occ : List Half} {occLen bpc goal : Nat} (hpos : 0 < occLen)
    (hlen : occLen ≤ occ.length) (fuel m : Nat) (hgoal : goal ≤ carried occ occLen bpc (m + fuel)) :
    ∃ n, occupancyWalk occ occLen bpc goal fuel (carried occ occLen bpc m) m (m % occLen) = some n
      ∧ goal ≤ carried occ occLen bpc n ∧ ∀ k, m ≤ k → k < n → carried occ occLen bpc k < goal := by
  induction fuel generalizing m with
  | zero => exact ⟨m, if_neg hgoal.not_gt, hgoal, fun k hmk hkm => absurd hmk hkm.not_ge⟩
  | succ fuel ih =>
    by_cases hm : carried occ occLen bpc m < goal
    · have hentry : occ[m % occLen]? = some (occ[m % occLen]'((Nat.mod_lt m hpos).trans_le hlen)) :=
        List.getElem?_eq_getElem _
      obtain ⟨n, hwalk, hn, hleast⟩ := ih (m + 1) (by rwa [Nat.add_right_comm])
      refine ⟨n, ?_, hn, fun k hmk hkn => ?_⟩
      · rw [carried, hentry, Option.getD_some, ← Nat.mod_add_mod] at hwalk
        simpa only [occupancyWalk, if_pos hm, hentry] using hwalk
      · obtain rfl | hlt := Nat.eq_or_lt_of_le hmk
        · exact hm
        · exact hleast k hlt hkn
    · exact ⟨m, if_neg hm, Nat.not_lt.mp hm, fun k hmk hkm => absurd hmk hkm.not_ge⟩

theorem carried_monotone (occ : List Half) (occLen bpc : Nat) : Monotone (carried occ occLen bpc) :=
  monotone_nat_of_le_succ fun _ => Nat.le_add_right _ _

/-- Each turn of a table with a non-zero in-use entry carries at least one bit (R29, R155). -/
theorem le_carried_turns {occ : List Half} {occLen bpc : Nat} (hbpc : 0 < bpc) (huse : InUse occ occLen) (p : Nat) :
    p ≤ carried occ occLen bpc (p * occLen) := by
  obtain ⟨j, hj, v, hv, hne⟩ := huse
  have hvpos : 0 < v.toNat := Nat.pos_of_ne_zero fun h0 => hne (BitVec.eq_of_toNat_eq h0)
  induction p with
  | zero => exact Nat.zero_le _
  | succ p ih =>
    have hmod : (p * occLen + j) % occLen = j := Nat.mul_add_mod_of_lt hj
    calc p + 1 ≤ carried occ occLen bpc (p * occLen + j) + v.toNat * bpc :=
          Nat.add_le_add (ih.trans (carried_monotone occ occLen bpc (Nat.le_add_right _ j))) (Nat.mul_pos hvpos hbpc)
      _ = carried occ occLen bpc (p * occLen + j + 1) := by rw [carried, hmod, hv, Option.getD_some]
      _ ≤ carried occ occLen bpc ((p + 1) * occLen) :=
          carried_monotone occ occLen bpc (by rw [Nat.succ_mul]; omega)

/-- An occupied OFDM configuration has a non-zero in-use entry (R29, R30). -/
theorem inUse_of_occupied {c : CfgRegs} (hvar : c.variant = .ofdm) (h : c.occupied = true) :
    InUse c.occ c.occLen.toNat := by
  have hany : ((c.occ.take c.occLen.toNat).any fun n => n != 0) = true := by simpa [CfgRegs.occupied, hvar] using h
  obtain ⟨v, hmem, hv⟩ := List.any_eq_true.mp hany
  obtain ⟨i, hi⟩ := List.mem_iff_getElem?.mp hmem
  obtain ⟨hlt, hget⟩ := Option.ite_none_right_eq_some.mp (List.getElem?_take.symm.trans hi)
  exact ⟨i, hlt, v, hget, by simpa using hv⟩

/-- The walk of a valid OFDM configuration ends (R155). -/
theorem exists_ofdmSymbols {s : State} (hv : s.cfg.valid s.params = true) (hvar : s.cfg.variant = .ofdm) (p : Nat) :
    ∃ n, ofdmSymbols p s = .ok n := by
  obtain ⟨-, -, -, -, ⟨hpb, -⟩, ⟨hocc, hoccMax⟩, hlen, -, hoccupied⟩ := CfgRegs.valid_iff.mp hv
  obtain ⟨n, hwalk, -, -⟩ := occupancyWalk_of_carried hocc (hoccMax.trans_eq hlen.symm) (p * s.cfg.occLen.toNat) 0
    ((le_carried_turns hpb (inUse_of_occupied hvar hoccupied) p).trans_eq (by rw [Nat.zero_add]))
  rw [Nat.zero_mod, carried] at hwalk
  exact ⟨BitVec.ofNat 32 n, by rw [ofdmSymbols, hwalk]⟩

/-! ## Judging a header -/

theorem bps_ne_zero_of_valid {p : Params} {c : CfgRegs} (hv : c.valid p = true) : c.bps ≠ 0#4 := by
  obtain ⟨-, -, ⟨hb, -⟩, -⟩ := CfgRegs.valid_iff.mp hv
  intro h0
  simp [h0] at hb

theorem unitWidth_of_ne {s : State} (h : s.cfg.bps ≠ 0#4) : unitWidth s = .ok s.cfg.bps.toNat := if_neg h

/-- The sequence of a legal implementation covers every valid OFDM header (R151). -/
theorem scrambledWidth_of_valid {s : State} (hp : s.params.Legal) (hv : s.cfg.valid s.params = true)
    (hvar : s.cfg.variant = .ofdm) : scrambledWidth s = .ok s.cfg.bps.toNat := by
  obtain ⟨-, -, ⟨-, hb⟩, ⟨-, hunits⟩, -⟩ := CfgRegs.valid_iff.mp hv
  have hspan : unitSpan s.cfg.bps.toNat ≤ s.cfg.hdrUnits.toNat * s.cfg.bps.toNat := by
    simpa only [hdrSpan, CfgRegs.htgt, hvar] using hdrSpan_le_htgt hv
  have hseq : s.cfg.hdrUnits.toNat * s.cfg.bps.toNat ≤ s.params.scrambleSeq.length :=
    (Nat.mul_le_mul hunits hb).trans_eq (by rw [hp.seqLength, Nat.mul_comm])
  simp only [scrambledWidth, unitWidth_of_ne (bps_ne_zero_of_valid hv), if_pos (max_le hseq (hspan.trans hseq))]

/-- In a valid configuration every layout validates and extracts what it reads (R130). -/
theorem exists_hdrOk_hdrPayload {s : State} (hp : s.params.Legal) (hv : s.cfg.valid s.params = true) :
    (∃ e, hdrOk s = .ok e) ∧ ∃ q, hdrPayload s = .ok q := by
  have hunit := unitWidth_of_ne (bps_ne_zero_of_valid hv)
  cases hvar : s.cfg.variant <;> simp only [hdrOk, hdrPayload, hvar]
  case default | counter | crc => exact ⟨⟨_, rfl⟩, _, rfl⟩
  case variableBits =>
    simp only [variableBitsHdrOk, variableBitsHdrPayload, hunit]
    exact ⟨⟨_, rfl⟩, _, rfl⟩
  case ofdm =>
    have hscr := scrambledWidth_of_valid hp hv hvar
    obtain ⟨n, hn⟩ := exists_ofdmSymbols hv hvar (8 * (unitFields s.hrDescrambled s.cfg.bps.toNat).1.toNat)
    simp only [ofdmHdrOk, ofdmHdrPayload, hscr, hn]
    exact ⟨⟨_, rfl⟩, _, rfl⟩

theorem payloadCount_of_ne {c : CfgRegs} (h : c.bps ≠ 0#4) (len : Half) :
    payloadCount len c = .ok (BitVec.ofNat 32 (8 * len.toNat / c.bps.toNat)) := if_neg h

/-- In a valid configuration every header is judged (R172). -/
theorem exists_judgeHeader {s : State} (hp : s.params.Legal) (hv : s.cfg.valid s.params = true) :
    ∃ q, judgeHeader s = .ok q := by
  obtain ⟨⟨e, he⟩, ⟨len, r⟩, hq⟩ := exists_hdrOk_hdrPayload hp hv
  cases e with
  | false => exact ⟨_, judgeHeader_of_invalid he⟩
  | true => exact ⟨_, judgeHeader_of_valid he hq (payloadCount_of_ne (bps_ne_zero_of_valid hv) len)⟩

/-! ## A stream bit -/

/-- Below the target the header register has a free cell, and a header that is completed is judged (R110, R170). -/
theorem exists_headerBit {s : State} (hp : s.params.Legal) (hv : s.cfg.valid s.params = true)
    (hcells : s.hrBits.length = s.params.hrCap) (hlt : s.hrLen.toNat < s.cfg.htgt) (b : Bool) :
    ∃ q, headerBit b s = .ok q := by
  have hroom : s.cfg.htgt ≤ s.hrBits.length := ((minUnitsAndShortestHeader.2 _ _ hv).2 hp).trans_eq hcells.symm
  have hinsert := hrInsert_of_lt (b := b) (hlt.trans_le hroom)
  by_cases hfull : (s.hrLen + 1).toNat = s.cfg.htgt
  · rw [headerBit_of_full hinsert hfull]
    exact exists_judgeHeader hp hv
  · exact ⟨_, headerBit_of_not_full hinsert hfull⟩

/-- Within the invariant every stream bit is consumed (R110, R170, R174). -/
theorem exists_consumeBit {s : State} (hinv : s.Inv) (b : Bool) : ∃ q, consumeBit b s = .ok q := by
  cases hf : s.fsm with
  | syncSearch =>
    by_cases he : s.cfg.effL = 0
    · rw [consumeBit_of_emptyCode hf he]
      have hpos : 0 < s.cfg.htgt := Nat.lt_of_lt_of_le (by decide) (minUnitsAndShortestHeader.2 _ _ hinv.config).1
      exact exists_headerBit (s := s.sync) hinv.params hinv.config hinv.cells hpos b
    · rw [consumeBit, emptyCodeMove_of_not (by simp [he])]
      exact ⟨_, consumeIn_of_syncSearch hf⟩
  | haveSync =>
    rw [consumeBit_of_haveSync hf]
    exact exists_headerBit hinv.params hinv.config hinv.cells (hinv.collecting hf) b
  | haveHeader =>
    rw [consumeBit, emptyCodeMove_of_not (by simp [hf])]
    exact ⟨_, consumeIn_of_haveHeader hf (if_neg (hinv.counting hf))⟩

/-! ## A header to send -/

theorem effL_le_of_valid {p : Params} {c : CfgRegs} (hv : c.valid p = true) : c.effL ≤ 64 := by
  obtain ⟨hfits, -⟩ := CfgRegs.valid_iff.mp hv
  have hac : c.acLen.toNat ≤ 64 := by
    simp only [CfgRegs.codeFits, Bool.and_eq_true, decide_eq_true_eq] at hfits
    exact hfits.1
  unfold CfgRegs.effL
  split <;> omega

/-- A coded layout that passes `FORMAT`'s checks has an access code of whole bytes (R160). -/
theorem effL_mod_of_formatCheck {len : Word} {c : CfgRegs} (hcode : c.variant.hasCode = true)
    (h : formatCheck len c = none) : c.effL % 8 = 0 := by
  by_contra hne
  simp [formatCheck, hcode, hne] at h

/-- The code and the two lengths are `effL/8 + 4` bytes (R140). -/
theorem exists_codeAndLengths {s : State} (hle : s.cfg.effL ≤ 64) (hmod : s.cfg.effL % 8 = 0) (len : Word) :
    ∃ u, codeAndLengths len s = .ok u ∧ u.hb.length = s.hb.length + s.cfg.effL / 8 + 4 := by
  have hcode : s.cfg.effL / 8 ≤ Overload.bits64.bytes := Nat.div_le_of_le_mul hle
  have hlen : 2 ≤ Overload.bits16.bytes := le_rfl
  refine ⟨_, if_pos hmod, ?_⟩
  simp only [State.addField_hb, List.length_append, fieldBytes_length hcode, fieldBytes_length hlen]

/-- A VariableBits header is at least `HDR_UNITS` bytes (R150). -/
theorem exists_variableBitsFormatBytes {s : State} (h : s.cfg.bps ≠ 0#4) (len : Word) :
    ∃ u, variableBitsFormatBytes len s = .ok u ∧ s.hb.length + s.cfg.hdrUnits.toNat ≤ u.hb.length := by
  have hok : ∃ u, variableBitsFormatBytes len s = .ok u := by
    simp only [variableBitsFormatBytes, unitWidth_of_ne h]
    exact ⟨_, rfl⟩
  obtain ⟨u, hu⟩ := hok
  refine ⟨u, hu, ?_⟩
  rw [variableBitsFormatBytes_ok hu]
  simp only [headerUnits, List.length_append, List.length_replicate]
  omega

/-- In a valid configuration every layout that passes `FORMAT`'s checks writes its `header_nbytes` bytes (R33, R105). -/
theorem exists_formatBytes {s : State} {len : Word} (hp : s.params.Legal) (hv : s.cfg.valid s.params = true)
    (hc : formatCheck len s.cfg = none) :
    ∃ u, formatBytes len s = .ok u ∧ s.hb.length + s.cfg.headerNbytes ≤ u.hb.length := by
  have hmod := effL_mod_of_formatCheck (len := len) (c := s.cfg)
  have hunits := exists_variableBitsFormatBytes (bps_ne_zero_of_valid hv) len
  cases hvar : s.cfg.variant <;>
    simp only [formatBytes, CfgRegs.headerNbytes, CfgRegs.headerNbits, CfgRegs.htgt, hvar, Variant.usesUnits,
      Variant.hasCode, Bool.false_eq_true, if_false, if_true] at hmod ⊢
  case default =>
    obtain ⟨u, hu, hlen⟩ := exists_codeAndLengths (effL_le_of_valid hv) (hmod trivial hc) len
    exact ⟨u, hu, by omega⟩
  case counter =>
    obtain ⟨u, hu, hlen⟩ := exists_codeAndLengths (effL_le_of_valid hv) (hmod trivial hc) len
    have h16 : 2 ≤ Overload.bits16.bytes := le_rfl
    simp only [counterFormatBytes, hu]
    refine ⟨_, rfl, ?_⟩
    simp only [State.addField_hb, List.length_append, fieldBytes_length h16]
    omega
  case crc =>
    have h32 : 4 ≤ Overload.bits32.bytes := le_rfl
    have heff : s.cfg.effL = 0 := by simp [CfgRegs.effL, hvar, Variant.hasCode]
    exact ⟨_, rfl, by simp [crcFormatBytes, fieldBytes_length h32, heff]⟩
  case variableBits => exact hunits
  case ofdm =>
    obtain ⟨u, hu, hlen⟩ := hunits
    simp only [ofdmFormatBytes, scrambledWidth_of_valid hp hv hvar, hu]
    exact ⟨_, rfl, by simpa using hlen⟩

/-- The buffer holds all the bytes that `FORMAT` emits (R105, R160). -/
theorem exists_buildHeader {s : State} {len : Word} (hp : s.params.Legal) (hv : s.cfg.valid s.params = true)
    (hc : formatCheck len s.cfg = none) : ∃ u, buildHeader len s = .ok u := by
  obtain ⟨u, hu, hlen⟩ := exists_formatBytes (s := s.hbClear) hp hv hc
  have hemit : emitHeader s.cfg.headerNbytes u = .ok _ := if_pos (by simpa using hlen)
  simp only [buildHeader, hu, hemit]
  exact ⟨_, rfl⟩

/-! ## Every command goes on -/

theorem gate_continues {run : State → Out} {s : State} (h : Continues (run s)) : Continues (gate run s) := by
  cases hf : s.fault with
  | true => exact ⟨_, gate_shut hf⟩
  | false => rwa [gate_open hf]

theorem cfgVariantCommand_continues (v : Byte) (s : State) : Continues (cfgVariantCommand v s) := by
  unfold cfgVariantCommand
  split <;> exact ⟨_, rfl⟩

theorem pushStream_continues {s : State} (hinv : s.Inv) (b : Bool) : Continues (pushStream b s) := by
  obtain ⟨⟨u, e⟩, h⟩ := exists_consumeBit hinv b
  exact ⟨_, by rw [pushStream, h]⟩

theorem formatCommand_continues {s : State} (hinv : s.Inv) (len : Word) : Continues (formatCommand len s) := by
  cases hc : formatCheck len s.cfg with
  | some st => exact ⟨_, formatCommand_of_refused hc⟩
  | none =>
    obtain ⟨u, hu⟩ := exists_buildHeader hinv.params hinv.config hc
    simp only [formatCommand, hc, hu]
    exact ⟨_, rfl⟩

/-- Every assigned register has a value (R47): the table has all its `OCC_MAX` entries. -/
theorem exists_regValue {s : State} {r : Nat} (hp : s.params.Legal) (hlen : s.cfg.occ.length = s.params.occMax)
    (h : regAssigned s.params r = true) : ∃ v, regValue s r = some v := by
  obtain ⟨hocc, -⟩ := regNumber_fits hp
  have hr : r ≤ 0x11 ∨ (0x40 ≤ r ∧ r < 0x40 + s.params.occMax) ∨ 0x80 ≤ r := by
    simp only [regAssigned, Bool.or_eq_true, Bool.and_eq_true, decide_eq_true_eq] at h
    omega
  obtain hfixed | ⟨hlo, hhi⟩ | hword := hr
  · have hlt : r < 0x40 := by omega
    simp only [regValue, if_pos hlt]
    interval_cases r <;> exact ⟨_, rfl⟩
  · have hentry : s.cfg.occ[r - 0x40]? = some (s.cfg.occ[r - 0x40]'(by omega)) := List.getElem?_eq_getElem _
    exact ⟨_, by rw [regValue, if_neg (by omega), if_pos (by omega), hentry, Option.map_some]⟩
  · exact ⟨_, by rw [regValue, if_neg (by omega), if_neg (by omega)]⟩

theorem exec_readReg_continues {s : State} (hinv : s.Inv) (r : Byte) : Continues (exec (.readReg r) s) := by
  cases ha : regAssigned s.params r.toNat with
  | false => exact ⟨_, exec_readReg_unassigned ha⟩
  | true =>
    obtain ⟨-, -, -, -, -, -, hlen, -⟩ := CfgRegs.valid_iff.mp hinv.config
    obtain ⟨v, hv⟩ := exists_regValue hinv.params hlen ha
    exact ⟨_, exec_readReg_assigned ha hv⟩

/-- Within the invariant every command goes on. -/
theorem exec_continues {i : Instr} {s : State} (hi : i.isCommand = true) (hinv : s.Inv) : Continues (exec i s) := by
  cases i with
  | nop | reset => exact ⟨_, rfl⟩
  | syncReset | cfgAccessCode | cfgThreshold | cfgBps | cfgHdrUnits | cfgPayloadBps | cfgOccLen | cfgOccEntry =>
    exact gate_continues ⟨_, rfl⟩
  | cfgVariant v => exact gate_continues (cfgVariantCommand_continues v s)
  | pushBit b => exact gate_continues (pushStream_continues hinv b)
  | pushSoft x => exact gate_continues (pushStream_continues hinv (sliceBit x))
  | format len => exact gate_continues (formatCommand_continues hinv len)
  | readReg r => exact exec_readReg_continues hinv r
  | _ => cases hi

/-- Taking a command off the port keeps the invariant, which does not name the port. -/
theorem State.Inv.takeCommand {s : State} (h : s.Inv) (rest : List Command) : { s with cmdIn := rest }.Inv :=
  { h with }

/-- Settles O10: an idle step and a refused word go on in every state; a decoded word is a command. -/
theorem everyStepGoesOnWithinTheInvariant : Obligations.EveryStepGoesOnWithinTheInvariant := by
  intro s hinv
  cases hs : s.cmdIn with
  | nil => exact ⟨s, step_of_idle hs⟩
  | cons c rest =>
    cases hd : decode c with
    | error e => exact ⟨_, step_of_refused hs hd⟩
    | ok i =>
      rw [step_of_decode hs hd]
      exact exec_continues (OpcodeRow.of_decode hd).isCommand (hinv.takeCommand rest)

end Sys2Proof.Machine
end

section
/-! SUPPORT. The correlator and the slicer (spec/42_correlator.md): the count of differing bits under `mask`, and the binary32
classes of `Slice` as ranges of the pattern's value. -/

namespace Sys2Proof

/-! ## Counting the low bits -/

theorem mask_getLsbD (n i : Nat) : (mask n).getLsbD i = (decide (i < 64) && decide (i < n)) := by
  rw [mask, BitVec.getLsbD_ofNat, Nat.testBit_two_pow_sub_one]

/-- Places from which on nothing is counted may be left out. -/
theorem countP_range_of_le {p : Nat → Bool} {n m : Nat} (hnm : n ≤ m) (hp : ∀ i, n ≤ i → p i = false) :
    (List.range m).countP p = (List.range n).countP p := by
  induction m, hnm using Nat.le_induction with
  | base => rfl
  | succ m hm ih => simp [List.range_succ, ih, hp m hm]

/-- `popcount` under `mask n` counts the set bits among the `n` low ones. Both counts are extended to the longer of the two
ranges: `n` may be above 64. -/
theorem popcount_and_mask (v : Word) (n : Nat) :
    popcount (v &&& mask n) = (List.range n).countP fun i => v.getLsbD i := by
  have hbit : ∀ i, (v &&& mask n).getLsbD i = (v.getLsbD i && decide (i < n)) := by
    intro i
    rw [BitVec.getLsbD_and, mask_getLsbD]
    cases hv : v.getLsbD i with
    | false => rfl
    | true => simp [BitVec.lt_of_getLsbD hv]
  calc popcount (v &&& mask n)
      = (List.range (max 64 n)).countP fun i => (v &&& mask n).getLsbD i :=
        (countP_range_of_le (le_max_left 64 n) fun i hi => BitVec.getLsbD_of_ge _ i hi).symm
    _ = (List.range n).countP fun i => (v &&& mask n).getLsbD i :=
        countP_range_of_le (le_max_right 64 n) fun i hi => by simp [hbit, Nat.not_lt.mpr hi]
    _ = (List.range n).countP fun i => v.getLsbD i :=
        List.countP_congr fun i hi => by simp [hbit, List.mem_range.mp hi]

end Sys2Proof

namespace Sys2Proof.Machine

/-! ## The match signal -/

/-- R120: the match signal counts the differing bits among the `effL` low ones. -/
theorem matchSignal_eq (c : CfgRegs) (data : Word) :
    matchSignal c data = decide (((List.range c.effL).countP fun i => data.getLsbD i != c.acPattern.getLsbD i)
      ≤ c.threshold.toNat) := by
  simp only [matchSignal, popcount_and_mask, BitVec.getLsbD_xor, Bool.xor]

/-! ## The classes of a binary32 value -/

theorem softSign_iff (x : BitVec 32) : x.getLsbD 31 = true ↔ 0x80000000 ≤ x.toNat := by
  rw [← BitVec.msb_eq_getLsbD_last x, BitVec.msb_eq_decide, decide_eq_true_eq]

theorem softIsZero_iff (x : BitVec 32) : softIsZero x = true ↔ x.toNat % 0x80000000 = 0 := by
  rw [softIsZero, beq_iff_eq, ← BitVec.toNat_inj]
  simp

/-- A NaN's magnitude lies above that of infinity. -/
theorem softIsNaN_iff (x : BitVec 32) : softIsNaN x = true ↔ 0x7F800000 < x.toNat % 0x80000000 := by
  have hexp : x.extractLsb' 23 8 = 0xFF#8 ↔ x.toNat / 0x800000 % 0x100 = 0xFF := by
    rw [← BitVec.toNat_inj]
    simp [Nat.shiftRight_eq_div_pow]
  have hfrac : x.extractLsb' 0 23 = 0#23 ↔ x.toNat % 0x800000 = 0 := by
    rw [← BitVec.toNat_inj]
    simp
  rw [softIsNaN, Bool.and_eq_true, beq_iff_eq, bne_iff_ne, ne_eq, hexp, hfrac]
  omega

/-- R122: the patterns of values below zero are those above `-0.0` and up to `-inf`. -/
theorem softNegative_iff (x : BitVec 32) :
    softNegative x = true ↔ 0x80000000 < x.toNat ∧ x.toNat ≤ 0xFF800000 := by
  have hlt := x.isLt
  rw [softNegative, Bool.and_eq_true, Bool.and_eq_true, Bool.not_eq_true', Bool.not_eq_true', ← Bool.not_eq_true,
    ← Bool.not_eq_true, softSign_iff, softIsNaN_iff, softIsZero_iff]
  omega

theorem sliceBit_eq (x : BitVec 32) : sliceBit x = decide (¬ (0x80000000 < x.toNat ∧ x.toNat ≤ 0xFF800000)) := by
  simp only [sliceBit, ← softNegative_iff, decide_not, Bool.decide_eq_true]

/-! ## The correlator and the slicer as instructions -/

theorem exec_corrStep (b : Bool) (s : State) :
    exec (.corrStep b) s = .next { s with dataReg := shiftIn s.dataReg b
                                          ret := .bit (matchSignal s.cfg (shiftIn s.dataReg b)) } := rfl

theorem exec_slice (x : BitVec 32) (s : State) : exec (.slice x) s = .next { s with ret := .bit (sliceBit x) } := rfl

/-- Settles O36: `shiftIn` is the shift written out, `matchSignal_eq` the comparison and `sliceBit_eq` the range. -/
theorem correlatorShiftsAndComparesAndSlices : Obligations.CorrelatorShiftsAndComparesAndSlices := by
  refine ⟨fun b s => ?_, fun x s => ?_⟩
  · rw [exec_corrStep, matchSignal_eq]
    rfl
  · rw [exec_slice, sliceBit_eq]

end Sys2Proof.Machine
end

section
/-! SUPPORT. The CRC-8 as a bit-serial register, the scramble sequence and the occupancy walk (R131, R132, R151, R155). -/

namespace Sys2Proof

/-! ## The scramble sequence -/

theorem lfsrBits_length (n : Nat) (r : Byte) : (lfsrBits n r).length = n := by
  induction n generalizing r with
  | zero => rfl
  | succ n ih => rw [lfsrBits, List.length_cons, ih]

/-- A run of the LFSR goes on from the register that a shorter one leaves (R151). -/
theorem lfsrBits_add (n m : Nat) (r : Byte) : lfsrBits (n + m) r = lfsrBits n r ++ lfsrBits m (lfsrNext^[n] r) := by
  induction n generalizing r with
  | zero => rw [Nat.zero_add]; rfl
  | succ n ih => rw [Nat.add_right_comm, lfsrBits, ih, lfsrBits, List.cons_append, Function.iterate_succ_apply]

end Sys2Proof

namespace Sys2Proof.Machine

/-! ## The CRC register, bit by bit -/

/-- A shift of the register with the rest of a byte mixed in is a serial step with the byte's first bit, the rest of the
byte still mixed in (R131). -/
theorem crcShift_xor (r x : Byte) : crcShift (r ^^^ x) = crcSerial r (x.getLsbD 7) ^^^ x <<< 1 := by
  have hshift : (r ^^^ x) <<< 1 = r <<< 1 ^^^ x <<< 1 := BitVec.shiftLeft_xor_distrib r x 1
  have hout : (r ^^^ x).getLsbD 7 = (r.getLsbD 7 != x.getLsbD 7) := BitVec.getLsbD_xor
  rw [crcShift, crcSerial, hshift, hout]
  split
  · rw [BitVec.xor_assoc, BitVec.xor_assoc, BitVec.xor_comm (x <<< 1)]
  · rw [BitVec.xor_zero]

/-- After `n` shifts the register has taken the `n` first bits of the byte, and the rest is still mixed in. -/
theorem crcShifts_xor {n : Nat} (hn : n ≤ 8) (r x : Byte) :
    crcShifts n (r ^^^ x) = ((List.range n).map fun i => x.getLsbD (7 - i)).foldl crcSerial r ^^^ x <<< n := by
  induction n generalizing r x with
  | zero => simp [crcShifts]
  | succ n ih =>
    have hrest : ((List.range n).map fun i => (x <<< 1).getLsbD (7 - i)) =
        (List.range n).map fun i => x.getLsbD (7 - (i + 1)) :=
      List.map_congr_left fun i hi => by
        have hlt := List.mem_range.mp hi
        rw [BitVec.getLsbD_shiftLeft, Nat.sub_sub]
        simp [show 7 - i < 8 by omega, show ¬ 7 - i < 1 by omega]
    rw [crcShifts, crcShift_xor, ih (by omega), hrest, List.range_succ_eq_map, List.map_cons, List.map_map,
      List.foldl_cons, ← BitVec.shiftLeft_add, Nat.add_comm 1 n]
    rfl

theorem crcByte_eq_serial (r x : Byte) : crcByte r x = (msbFirst x).foldl crcSerial r := by
  rw [crcByte, crcShifts_xor le_rfl, BitVec.shiftLeft_eq_zero le_rfl, BitVec.xor_zero, msbFirst]

/-- R131: the CRC of a byte string is the serial register over its bits. -/
theorem crc8_eq_serial (bytes : List Byte) : crc8 bytes = (bytes.flatMap msbFirst).foldl crcSerial 0xFF#8 := by
  have hstep : crcByte = fun r x => (msbFirst x).foldl crcSerial r := funext₂ crcByte_eq_serial
  rw [crc8, hstep, List.foldl_flatMap]

/-- A 12-bit field as two bytes, the low one first (R65). -/
theorem bytesLe_zext16 (v : BitVec 12) :
    bytesLe 2 (zext16 v).toNat = [v.extractLsb' 0 8, (v.extractLsb' 8 4).setWidth 8] := by
  have hlt := v.isLt
  have hlow : BitVec.ofNat 8 (zext16 v).toNat = v.extractLsb' 0 8 :=
    BitVec.eq_of_toNat_eq (by simp [zext16])
  have hhigh : BitVec.ofNat 8 ((zext16 v).toNat / 256) = (v.extractLsb' 8 4).setWidth 8 :=
    BitVec.eq_of_toNat_eq (by simp [zext16, Nat.shiftRight_eq_div_pow]; omega)
  rw [bytesLe, bytesLe, bytesLe, hlow, hhigh]

/-- R65: `crc_in(l, c)`. -/
theorem crcIn_eq (l c : BitVec 12) : crcIn l c =
    [l.extractLsb' 0 8, (l.extractLsb' 8 4).setWidth 8, c.extractLsb' 0 8, (c.extractLsb' 8 4).setWidth 8] := by
  rw [crcIn, bytesLe_zext16, bytesLe_zext16]
  rfl

theorem exec_crc8 (bytes : List Byte) (s : State) :
    exec (.crc8 bytes) s = .next { s with ret := .word ((crc8 bytes).setWidth 64) } := rfl

theorem exec_crcOf (l c : BitVec 12) (s : State) :
    exec (.crcOf l c) s = .next { s with ret := .word ((crc8 (crcIn l c)).setWidth 64) } := rfl

/-- Settles O46: `crc8_eq_serial`, for `crc_of` over the four bytes of `crcIn_eq`. -/
theorem crcIsTheBitSerialRemainder : Obligations.CrcIsTheBitSerialRemainder := by
  refine ⟨fun bytes s => ?_, fun l c s => ?_⟩
  · rw [exec_crc8, crc8_eq_serial]
  · rw [exec_crcOf, crcIn_eq, crc8_eq_serial]

/-- A bit sequence as a number, the first bit the most significant. -/
def seqNumber (v : Nat) (bits : List Bool) : Nat := bits.foldl (fun v b => 2 * v + b.toNat) v

/-- Settles O47: `SEQ` answers the parameter; the first 64 bits of the default are two runs of 32 bits of the LFSR. -/
theorem scrambleSequenceIsTheParameter : Obligations.ScrambleSequenceIsTheParameter := by
  refine ⟨fun _ => rfl, lfsrBits_length _ _, ?_⟩
  have hstart : defaultParams.scrambleSeq.take 64 = lfsrBits 32 0x6F#8 ++ lfsrBits 32 (lfsrNext^[32] 0x6F#8) := by
    rw [← lfsrBits_add 32 32]
    exact (congrArg (List.take 64) (lfsrBits_add 64 448 0x6F#8)).trans (List.take_left' (lfsrBits_length 64 _))
  have hfirst : seqNumber 0 (lfsrBits 32 0x6F#8) = 0xF66AFC10 := by decide
  have hsecond : seqNumber 0xF66AFC10 (lfsrBits 32 (lfsrNext^[32] 0x6F#8)) = 0xF66AFC10C53D1C96 := by decide
  calc seqNumber 0 (defaultParams.scrambleSeq.take 64)
      = seqNumber (seqNumber 0 (lfsrBits 32 0x6F#8)) (lfsrBits 32 (lfsrNext^[32] 0x6F#8)) := by
        rw [hstart]; exact List.foldl_append
    _ = 0xF66AFC10C53D1C96 := by rw [hfirst, hsecond]

/-! ## The occupancy walk -/

/-- A walk over entries that carry nothing never reaches its goal (R155). -/
theorem occupancyWalk_of_idle {occ : List Half} {occLen bpc goal acc : Nat} (hacc : acc < goal)
    (hidle : ∀ i < occLen, ∀ v, occ[i]? = some v → v.toNat * bpc = 0) (fuel n : Nat) {k : Nat}
    (hk : 0 < fuel → k < occLen) : occupancyWalk occ occLen bpc goal fuel acc n k = none := by
  induction fuel generalizing n k with
  | zero => exact if_pos hacc
  | succ fuel ih =>
    have hlt : k < occLen := hk (Nat.succ_pos fuel)
    rw [occupancyWalk, if_pos hacc]
    cases hentry : occ[k]? with
    | none => rfl
    | some v =>
      simp only [hidle k hlt v hentry, Nat.add_zero]
      exact ih (n + 1) fun _ => Nat.mod_lt _ (Nat.zero_lt_of_lt hlt)

/-- Without carriers or without bits on them nothing is ever carried (R29, R155). -/
theorem idle_of_unusable {c : CfgRegs} (h : c.payloadBps = 0 ∨ ¬ InUse c.occ c.occLen.toNat) :
    ∀ i < c.occLen.toNat, ∀ v, c.occ[i]? = some v → v.toNat * c.payloadBps.toNat = 0 := by
  intro i hi v hv
  obtain hbps | huse := h
  · rw [hbps]; exact Nat.mul_zero _
  · have hzero : v = 0#16 := by_contra fun hne => huse ⟨i, hi, v, hv, hne⟩
    rw [hzero]; exact Nat.zero_mul _

theorem exec_ofdmSymbols_of_none {p : BitVec 32} {s : State}
    (h : occupancyWalk s.cfg.occ s.cfg.occLen.toNat s.cfg.payloadBps.toNat p.toNat (p.toNat * s.cfg.occLen.toNat) 0 0 0
      = none) : exec (.ofdmSymbols p) s = .fault .occupancyWalk := by
  show execOfdmSymbols p s = _
  rw [execOfdmSymbols, ofdmSymbols, h]

theorem exec_ofdmSymbols_of_ok {p : BitVec 32} {s : State} {n : BitVec 32} (h : ofdmSymbols p.toNat s = .ok n) :
    exec (.ofdmSymbols p) s = .next { s with ret := .word (n.setWidth 64) } := by
  show execOfdmSymbols p s = _
  rw [execOfdmSymbols, h]
  rfl

/-- The count of a walk that ends is the least one that suffices (R155). -/
theorem ofdmSymbols_least {s : State} (hbps : 0 < s.cfg.payloadBps.toNat) (hpos : 0 < s.cfg.occLen.toNat)
    (hlen : s.cfg.occLen.toNat ≤ s.cfg.occ.length) (huse : InUse s.cfg.occ s.cfg.occLen.toNat) (p : Nat) :
    ∃ n, ofdmSymbols p s = .ok (BitVec.ofNat 32 n)
      ∧ p ≤ carried s.cfg.occ s.cfg.occLen.toNat s.cfg.payloadBps.toNat n
      ∧ ∀ m, m < n → carried s.cfg.occ s.cfg.occLen.toNat s.cfg.payloadBps.toNat m < p := by
  obtain ⟨n, hwalk, hn, hleast⟩ := occupancyWalk_of_carried hpos hlen (p * s.cfg.occLen.toNat) 0
    ((le_carried_turns hbps huse p).trans_eq (by rw [Nat.zero_add]))
  rw [Nat.zero_mod, carried] at hwalk
  exact ⟨n, by rw [ofdmSymbols, hwalk], hn, fun m hm => hleast m (Nat.zero_le m) hm⟩

/-- Settles O48: an unusable table leaves the walk idle, no bits need no symbol, and otherwise `ofdmSymbols_least`. -/
theorem ofdmSymbolsIsTheLeastSufficientCount : Obligations.OfdmSymbolsIsTheLeastSufficientCount := by
  refine ⟨fun p s hp h => exec_ofdmSymbols_of_none ?_, fun s => ?_, fun p s hbps hpos hlen huse => ?_⟩
  · have hgoal : 0 < p.toNat := Nat.pos_of_ne_zero fun h0 => hp (BitVec.eq_of_toNat_eq h0)
    exact occupancyWalk_of_idle hgoal (idle_of_unusable h) _ 0 fun hfuel => Nat.pos_of_mul_pos_left hfuel
  · have hzero : ofdmSymbols (0 : BitVec 32).toNat s = .ok 0 := by simp [ofdmSymbols, occupancyWalk]
    exact exec_ofdmSymbols_of_ok hzero
  · obtain ⟨n, hsym, hn, hleast⟩ := ofdmSymbols_least hbps hpos hlen huse p.toNat
    exact ⟨n, hn, hleast, exec_ofdmSymbols_of_ok hsym⟩

end Sys2Proof.Machine
end

section
/-! SUPPORT. Headers received (spec/43_formatters.md): the fields of a header that the header register holds, as validation and
extraction read them, and what the CRC layout detects. -/

namespace Sys2Proof

/-! ## Fields most significant bit first -/

/-- The bits of a value, most significant first. -/
def msbBits {w : Nat} (v : BitVec w) : List Bool := (List.range w).map fun i => v.getLsbD (w - 1 - i)

@[simp] theorem msbBits_length {w : Nat} (v : BitVec w) : (msbBits v).length = w := by simp [msbBits]

theorem msbBits_getElem? {w i : Nat} (hi : i < w) (v : BitVec w) : (msbBits v)[i]? = some (v.getLsbD (w - 1 - i)) := by
  simp [msbBits, hi]

theorem msbFirst_eq_msbBits (x : Byte) : msbFirst x = msbBits x := rfl

/-- The bits of two values set side by side are those of the high one, then those of the low one. -/
theorem msbBits_append {w v : Nat} (x : BitVec w) (y : BitVec v) : msbBits (x ++ y) = msbBits x ++ msbBits y := by
  apply List.ext_getElem?
  intro i
  rcases Nat.lt_or_ge i (w + v) with hi | hi
  · rw [msbBits_getElem? hi, BitVec.getLsbD_append]
    rcases Nat.lt_or_ge i w with hw | hw
    · rw [List.getElem?_append_left (by simpa using hw), msbBits_getElem? hw, if_neg (by omega)]
      congr 2
      omega
    · rw [List.getElem?_append_right (by simpa using hw), msbBits_length, msbBits_getElem? (by omega), if_pos (by omega)]
      congr 2
      omega
  · rw [List.getElem?_eq_none (by simpa using hi), List.getElem?_eq_none (by simpa using hi)]

/-- Bits that are those of a value, read as a number, are the value (R111). -/
theorem fieldMsb_eq_toNat {bits : Nat → Bool} {off w : Nat} {v : BitVec w}
    (h : ∀ i < w, bits (off + i) = v.getLsbD (w - 1 - i)) : fieldMsb bits off w = v.toNat := by
  apply Nat.eq_of_testBit_eq
  intro k
  rw [BitVec.testBit_toNat]
  rcases Nat.lt_or_ge k w with hk | hk
  · have hmirror : w - 1 - (w - 1 - k) = k := by omega
    have hbit := fieldMsb_testBit bits off (w := w) (k := w - 1 - k) (by omega)
    rw [hmirror, h _ (by omega), hmirror] at hbit
    exact hbit
  · rw [Nat.testBit_lt_two_pow ((fieldMsb_lt bits off w).trans_le (Nat.pow_le_pow_right Nat.two_pos hk)),
      BitVec.getLsbD_of_ge v k hk]

/-- Bits that are those of a value, read the other way, are the value (R113). -/
theorem fieldLsb_eq_toNat {bits : Nat → Bool} {off w : Nat} {v : BitVec w}
    (h : ∀ i < w, bits (off + i) = v.getLsbD i) : fieldLsb bits off w = v.toNat := by
  apply Nat.eq_of_testBit_eq
  intro k
  rw [BitVec.testBit_toNat]
  rcases Nat.lt_or_ge k w with hk | hk
  · rw [fieldLsb_testBit bits off hk, h k hk]
  · rw [Nat.testBit_lt_two_pow ((fieldLsb_lt bits off w).trans_le (Nat.pow_le_pow_right Nat.two_pos hk)),
      BitVec.getLsbD_of_ge v k hk]

end Sys2Proof

namespace Sys2Proof.Machine

/-- The bits of a 16-bit field on the wire (R62, R63). -/
theorem bigEndian16_bits (v : Half) : (bigEndian16 v).flatMap msbFirst = msbBits v := by
  have hsplit : v.extractLsb' 8 8 ++ v.extractLsb' 0 8 = v :=
    (BitVec.extractLsb'_append_extractLsb'_eq_extractLsb' (x := v) rfl).trans BitVec.extractLsb'_eq_self
  calc (bigEndian16 v).flatMap msbFirst = msbBits (v.extractLsb' 8 8) ++ msbBits (v.extractLsb' 0 8) := by
        simp only [bigEndian16, msbFirst_eq_msbBits, List.flatMap_cons, List.flatMap_nil, List.append_nil]
    _ = msbBits v := by rw [← msbBits_append, hsplit]

/-! ## The cells of a held header -/

theorem State.HrHolds.le_length {s : State} {bits : List Bool} (h : s.HrHolds bits) : bits.length ≤ s.hrBits.length := by
  have hlen := congrArg List.length h.2
  rw [List.length_take] at hlen
  omega

/-- A held bit reads as it was received (R38, R55). -/
theorem State.HrHolds.hrCell_eq {s : State} {bits : List Bool} (h : s.HrHolds bits) {i : Nat} {b : Bool}
    (hb : bits[i]? = some b) : s.hrCell i = b := by
  obtain ⟨hi, -⟩ := List.getElem?_eq_some_iff.mp hb
  obtain ⟨hlen, htake⟩ := h
  refine hrCell_stored (by rwa [hlen]) ?_
  rw [← hb, ← List.getElem?_take_of_lt hi, htake]

/-- Reading within a held header makes no free draw (R55, R112). -/
theorem State.HrHolds.afterRead_eq {s : State} {bits : List Bool} (h : s.HrHolds bits) {hi : Nat}
    (hle : hi ≤ bits.length) : s.afterRead hi = s :=
  afterRead_defined (hle.trans_eq h.1.symm) (hle.trans h.le_length)

/-- A field of a held header, read from where it begins, is its value (R111). -/
theorem State.HrHolds.fieldMsb_eq {s : State} {w : Nat} {pre post : List Bool} {v : BitVec w}
    (h : s.HrHolds (pre ++ (msbBits v ++ post))) : fieldMsb s.hrCell pre.length w = v.toNat := by
  refine fieldMsb_eq_toNat fun i hi => h.hrCell_eq ?_
  rw [List.getElem?_append_right (Nat.le_add_right _ _), Nat.add_sub_cancel_left,
    List.getElem?_append_left (by simpa using hi), msbBits_getElem? hi]

/-! ## Default and Counter headers -/

theorem exec_defaultHdrOk (s : State) :
    exec .defaultHdrOk s = .next ((s.afterRead 32).returns (.bit (defaultHdrOk s))) := rfl

theorem exec_defaultHdrPayload (s : State) :
    exec .defaultHdrPayload s =
      .next ((s.afterRead 16).returns (.payload (defaultHdrPayload s).1 (defaultHdrPayload s).2)) := rfl

theorem exec_counterHdrOk (s : State) :
    exec .counterHdrOk s = .next ((s.afterRead 32).returns (.bit (counterHdrOk s))) := rfl

theorem exec_counterHdrPayload (s : State) :
    exec .counterHdrPayload s =
      .next ((s.afterRead 64).returns (.payload (counterHdrPayload s).1 (counterHdrPayload s).2)) := rfl

theorem ofNat_toNat_self {w : Nat} (v : BitVec w) : BitVec.ofNat w v.toNat = v := by
  rw [BitVec.ofNat_toNat, BitVec.setWidth_eq]

/-- What the first 32 bits of a Default or Counter header say: two lengths (R141, R144). -/
theorem State.HrHolds.lengths {s : State} {x y : Half} {post : List Bool}
    (h : s.HrHolds (msbBits x ++ (msbBits y ++ post))) :
    fieldMsb s.hrCell 0 16 = x.toNat ∧ fieldMsb s.hrCell 16 16 = y.toNat := by
  have hy := State.HrHolds.fieldMsb_eq (pre := msbBits x) h
  rw [msbBits_length] at hy
  exact ⟨State.HrHolds.fieldMsb_eq (pre := []) h, hy⟩

/-- Settles O54: each field is read back by `State.HrHolds.fieldMsb_eq`. -/
theorem lengthPairHeadersAreJudgedAndRead : Obligations.LengthPairHeadersAreJudgedAndRead := by
  intro x y p n s
  simp only [List.flatMap_append, bigEndian16_bits]
  refine ⟨fun h => ?_, fun h => ?_⟩
  · obtain ⟨hx, hy⟩ := State.HrHolds.lengths (s := s) (x := x) (y := y) (post := []) (by simpa using h)
    have hlen : (msbBits x ++ msbBits y).length = 32 := by simp
    rw [exec_defaultHdrOk, exec_defaultHdrPayload, h.afterRead_eq (by omega), h.afterRead_eq (by omega), defaultHdrOk,
      defaultHdrPayload, hx, hy]
    simp only [BitVec.toNat_inj, ofNat_toNat_self]
    exact ⟨rfl, rfl⟩
  · have hlen : (msbBits x ++ msbBits y ++ msbBits p ++ msbBits n).length = 64 := by simp
    obtain ⟨hx, hy⟩ := State.HrHolds.lengths (s := s) (x := x) (y := y) (post := msbBits p ++ msbBits n) (by simpa using h)
    have hp : fieldMsb s.hrCell 32 16 = p.toNat := by
      simpa using State.HrHolds.fieldMsb_eq (s := s) (pre := msbBits x ++ msbBits y) (v := p) (post := msbBits n)
        (by simpa using h)
    have hn : fieldMsb s.hrCell 48 16 = n.toNat := by
      simpa using State.HrHolds.fieldMsb_eq (s := s) (pre := msbBits x ++ msbBits y ++ msbBits p) (v := n) (post := [])
        (by simpa using h)
    rw [exec_counterHdrOk, exec_counterHdrPayload, h.afterRead_eq (by omega), h.afterRead_eq (by omega), counterHdrOk,
      counterHdrPayload, hx, hy, hp, hn]
    simp only [BitVec.toNat_inj, ofNat_toNat_self]
    exact ⟨rfl, rfl⟩

/-! ## CRC-layout headers -/

theorem exec_crcHdrOk (s : State) : exec .crcHdrOk s = .next ((s.afterRead 32).returns (.bit (crcHdrOk s))) := rfl

theorem exec_crcHdrPayload (s : State) :
    exec .crcHdrPayload s = .next ((s.afterRead 24).returns (.payload (crcHdrPayload s).1 (crcHdrPayload s).2)) := rfl

/-- The three fields of a held CRC-layout header (R147). -/
theorem State.HrHolds.crcFields {s : State} {l c : BitVec 12} {k : Byte}
    (h : s.HrHolds (msbBits (c ++ (l ++ k) : BitVec 32))) :
    crcHdrCounter s = c ∧ crcHdrLen s = l ∧ crcHdrCrc s = k := by
  have hbits : msbBits (c ++ (l ++ k) : BitVec 32) = msbBits c ++ (msbBits l ++ msbBits k) := by
    rw [← msbBits_append l k]
    exact msbBits_append c (l ++ k)
  rw [hbits] at h
  have hc : fieldMsb s.hrCell 0 12 = c.toNat := State.HrHolds.fieldMsb_eq (pre := []) h
  have hl : fieldMsb s.hrCell 12 12 = l.toNat := by
    simpa using State.HrHolds.fieldMsb_eq (s := s) (pre := msbBits c) h
  have hk : fieldMsb s.hrCell 24 8 = k.toNat := by
    simpa using State.HrHolds.fieldMsb_eq (s := s) (pre := msbBits c ++ msbBits l) (v := k) (post := []) (by simpa using h)
  rw [crcHdrCounter, crcHdrLen, crcHdrCrc, hc, hl, hk]
  exact ⟨ofNat_toNat_self c, ofNat_toNat_self l, ofNat_toNat_self k⟩

/-- A held CRC-layout header is judged by its CRC (R147). -/
theorem exec_crcHdrOk_of_holds {s : State} {l c : BitVec 12} {k : Byte}
    (h : s.HrHolds (msbBits (c ++ (l ++ k) : BitVec 32))) :
    exec .crcHdrOk s = .next { s with ret := .bit (decide (crcOf l c = k)) } := by
  obtain ⟨hc, hl, hk⟩ := h.crcFields
  rw [exec_crcHdrOk, h.afterRead_eq (msbBits_length _).ge, crcHdrOk, hc, hl, hk]
  rfl

/-- Settles O55: `State.HrHolds.crcFields`. -/
theorem crcHeadersAreJudgedAndRead : Obligations.CrcHeadersAreJudgedAndRead := by
  intro l c k s h
  change s.HrHolds (msbBits (c ++ (l ++ k) : BitVec 32)) at h
  refine ⟨exec_crcHdrOk_of_holds h, ?_⟩
  obtain ⟨hc, hl, -⟩ := h.crcFields
  rw [exec_crcHdrPayload, h.afterRead_eq (by rw [msbBits_length]; decide), crcHdrPayload, hc, hl]
  rfl

/-! ## What the CRC layout detects -/

/-- What the outgoing bit adds to the register (R131). -/
def crcFeedback (out : Bool) : Byte := if out then 0x07#8 else 0#8

theorem crcShift_eq (r : Byte) : crcShift r = r <<< 1 ^^^ crcFeedback (r.getLsbD 7) := by
  rw [crcShift, crcFeedback]
  split
  · rfl
  · rw [BitVec.xor_zero]

theorem crcFeedback_xor (p q : Bool) : crcFeedback (p ^^ q) = crcFeedback p ^^^ crcFeedback q := by
  cases p <;> cases q <;> rfl

theorem crcShift_linear (r r' : Byte) : crcShift (r ^^^ r') = crcShift r ^^^ crcShift r' := by
  rw [crcShift_eq, BitVec.shiftLeft_xor_distrib, BitVec.getLsbD_xor, crcFeedback_xor, crcShift_eq, crcShift_eq]
  ac_rfl

theorem crcShifts_linear (n : Nat) (r r' : Byte) : crcShifts n (r ^^^ r') = crcShifts n r ^^^ crcShifts n r' := by
  induction n generalizing r r' with
  | zero => rfl
  | succ n ih => rw [crcShifts, crcShift_linear, ih, crcShifts, crcShifts]

/-- The CRC is linear in the register and the message together (R158). -/
theorem crcByte_linear (r r' x x' : Byte) : crcByte (r ^^^ r') (x ^^^ x') = crcByte r x ^^^ crcByte r' x' := by
  have hsort : r ^^^ r' ^^^ (x ^^^ x') = (r ^^^ x) ^^^ (r' ^^^ x') := by ac_rfl
  rw [crcByte, hsort, crcShifts_linear, crcByte, crcByte]

/-- The CRC register of two fields from a given start value. -/
def crcFrom (r : Byte) (l c : BitVec 12) : Byte := (crcIn l c).foldl crcByte r

theorem crcOf_eq_crcFrom (l c : BitVec 12) : crcOf l c = crcFrom 0xFF#8 l c := rfl

theorem crcFrom_linear (r r' : Byte) (l l' c c' : BitVec 12) :
    crcFrom (r ^^^ r') (l ^^^ l') (c ^^^ c') = crcFrom r l c ^^^ crcFrom r' l' c' := by
  simp only [crcFrom, crcIn_eq, BitVec.extractLsb'_xor, BitVec.setWidth_xor, List.foldl_cons, List.foldl_nil,
    crcByte_linear]

/-- What an error pattern of a CRC-layout header adds to the difference of computed and received CRC. -/
def crcSyndrome (e : BitVec 32) : Byte := crcFrom 0 (e.extractLsb' 8 12) (e.extractLsb' 20 12) ^^^ e.extractLsb' 0 8

theorem crcSyndrome_xor (a b : BitVec 32) : crcSyndrome (a ^^^ b) = crcSyndrome a ^^^ crcSyndrome b := by
  have hzero : crcFrom 0 = crcFrom (0 ^^^ 0) := rfl
  simp only [crcSyndrome, BitVec.extractLsb'_xor]
  rw [hzero, crcFrom_linear]
  ac_rfl

/-- A word of 32 bits is its three fields of the CRC layout (R146). -/
theorem crcWord_split (e : BitVec 32) :
    e = (e.extractLsb' 20 12 ++ (e.extractLsb' 8 12 ++ e.extractLsb' 0 8) : BitVec 32) := by
  have hlow : (e.extractLsb' 8 12 ++ e.extractLsb' 0 8 : BitVec 20) = e.extractLsb' 0 20 :=
    BitVec.extractLsb'_append_extractLsb'_eq_extractLsb' rfl
  rw [hlow]
  have hall : (e.extractLsb' 20 12 ++ e.extractLsb' 0 20 : BitVec 32) = e.extractLsb' 0 32 :=
    BitVec.extractLsb'_append_extractLsb'_eq_extractLsb' rfl
  exact (hall.trans BitVec.extractLsb'_eq_self).symm

/-- A header with an error passes for valid exactly when the error's syndrome is 0 (R158). -/
theorem crc_of_error_eq_iff (l c : BitVec 12) (e : BitVec 32) :
    crcOf (l ^^^ e.extractLsb' 8 12) (c ^^^ e.extractLsb' 20 12) = crcOf l c ^^^ e.extractLsb' 0 8
      ↔ crcSyndrome e = 0#8 := by
  have hlinear := crcFrom_linear 0xFF#8 0 l (e.extractLsb' 8 12) c (e.extractLsb' 20 12)
  change crcFrom 0xFF#8 _ _ = _ at hlinear
  rw [crcOf_eq_crcFrom, crcOf_eq_crcFrom, hlinear, BitVec.xor_right_inj, crcSyndrome, BitVec.xor_eq_zero_iff]

/-! ### Errors of few bits -/

/-- The set bits of a value, lowest first. -/
def setBits {w : Nat} (e : BitVec w) : List Nat := (List.range w).filter fun i => e.getLsbD i

theorem setBits_length {w : Nat} (e : BitVec w) : (setBits e).length = popcount e := (List.countP_eq_length_filter).symm

/-- The XOR of distinct single bits has exactly these bits. -/
theorem getLsbD_foldr_twoPow {w k : Nat} (hk : k < w) {is : List Nat} (hnodup : is.Nodup) :
    (is.foldr (fun i v => BitVec.twoPow w i ^^^ v) 0#w).getLsbD k = decide (k ∈ is) := by
  induction is with
  | nil => simp
  | cons i is ih =>
    obtain ⟨hi, hnodup⟩ := List.nodup_cons.mp hnodup
    rw [List.foldr_cons, BitVec.getLsbD_xor, ih hnodup, BitVec.getLsbD_twoPow]
    by_cases hki : k = i
    · subst hki; simp [hk, hi]
    · simp [hki, Ne.symm hki]

/-- A value is the XOR of its set bits. -/
theorem eq_foldr_setBits {w : Nat} (e : BitVec w) : e = (setBits e).foldr (fun i v => BitVec.twoPow w i ^^^ v) 0#w := by
  apply BitVec.eq_of_getLsbD_eq
  intro k hk
  have hnodup : (setBits e).Nodup := List.nodup_range.filter _
  rw [getLsbD_foldr_twoPow hk hnodup]
  simp [setBits, hk]

/-- The parity of a byte. -/
def oddByte (x : Byte) : Bool := (List.range 8).foldr (fun i p => x.getLsbD i ^^ p) false

theorem oddByte_xor (x y : Byte) : oddByte (x ^^^ y) = (oddByte x ^^ oddByte y) := by
  have hfold : ∀ is : List Nat, is.foldr (fun i p => (x ^^^ y).getLsbD i ^^ p) false =
      (is.foldr (fun i p => x.getLsbD i ^^ p) false ^^ is.foldr (fun i p => y.getLsbD i ^^ p) false) := by
    intro is
    induction is with
    | nil => rfl
    | cons i is ih =>
      rw [List.foldr_cons, ih, BitVec.getLsbD_xor, List.foldr_cons, List.foldr_cons]
      simp only [Bool.xor_assoc, Bool.xor_left_comm, Bool.xor_comm]
  exact hfold _

/-- Every single-bit error has a syndrome of odd parity, as `x + 1` divides the polynomial (R131). -/
theorem oddByte_crcSyndrome_twoPow : ∀ i < 32, oddByte (crcSyndrome (BitVec.twoPow 32 i)) = true := by decide +kernel

/-- No two single-bit errors have the same syndrome. -/
theorem crcSyndrome_twoPow_nodup : ((List.range 32).map fun i => crcSyndrome (BitVec.twoPow 32 i)).Nodup := by
  decide +kernel

/-- The syndrome of an error is the XOR of those of its bits. -/
theorem crcSyndrome_eq_foldr (e : BitVec 32) :
    crcSyndrome e = (setBits e).foldr (fun i v => crcSyndrome (BitVec.twoPow 32 i) ^^^ v) 0#8 := by
  have hfold : ∀ is : List Nat, crcSyndrome (is.foldr (fun i v => BitVec.twoPow 32 i ^^^ v) 0#32) =
      is.foldr (fun i v => crcSyndrome (BitVec.twoPow 32 i) ^^^ v) 0#8 := by
    intro is
    induction is with
    | nil => exact (crcSyndrome_xor 0#32 0#32).trans BitVec.xor_self
    | cons i is ih => rw [List.foldr_cons, crcSyndrome_xor, ih, List.foldr_cons]
  rw [← hfold, ← eq_foldr_setBits]

/-- An error of one, two or three bits has a syndrome: an odd number of bits gives it odd parity, and two bits cannot cancel
(R158). -/
theorem crcSyndrome_ne_zero {e : BitVec 32} (he : e ≠ 0#32) (hfew : popcount e ≤ 3) : crcSyndrome e ≠ 0#8 := by
  have hlen : (setBits e).length ≤ 3 := (setBits_length e).trans_le hfew
  have hlt : ∀ i ∈ setBits e, i < 32 := fun i hi => List.mem_range.mp (List.mem_of_mem_filter hi)
  have hodd : ∀ i ∈ setBits e, oddByte (crcSyndrome (BitVec.twoPow 32 i)) = true := fun i hi =>
    oddByte_crcSyndrome_twoPow i (hlt i hi)
  have hnodup : (setBits e).Nodup := List.nodup_range.filter _
  have hparity : ∀ {x : Byte}, oddByte x = true → x ≠ 0#8 := by
    rintro _ hx rfl
    exact absurd hx (by decide)
  rw [crcSyndrome_eq_foldr]
  match hbits : setBits e, hlen with
  | [], _ => exact absurd ((eq_foldr_setBits e).trans (by rw [hbits]; rfl)) he
  | [i], _ =>
    rw [hbits] at hodd
    exact hparity (by simp [hodd i])
  | [i, j], _ =>
    rw [hbits] at hlt hnodup
    have hne : i ≠ j := by simpa using hnodup
    have hinj := List.inj_on_of_nodup_map crcSyndrome_twoPow_nodup (List.mem_range.mpr (hlt i (by simp)))
      (List.mem_range.mpr (hlt j (by simp)))
    rw [List.foldr_cons, List.foldr_cons, List.foldr_nil, BitVec.xor_zero]
    exact fun hzero => hne (hinj (BitVec.xor_eq_zero_iff.mp hzero))
  | [i, j, k], _ =>
    rw [hbits] at hodd
    exact hparity (by simp [oddByte_xor, hodd i, hodd j, hodd k])

/-- Settles O49: the register holds the header of the fields with the error in them, which is valid only if the syndrome of
the error is 0. -/
theorem crcLayoutDetectsUpToThreeFlips : Obligations.CrcLayoutDetectsUpToThreeFlips := by
  intro s l c e he hfew h
  have hword : (c ++ (l ++ crcOf l c) : BitVec 32) ^^^ e =
      (c ^^^ e.extractLsb' 20 12) ++ ((l ^^^ e.extractLsb' 8 12) ++ (crcOf l c ^^^ e.extractLsb' 0 8)) := by
    rw [← BitVec.xor_append, ← BitVec.xor_append, ← crcWord_split]
  have hheld : s.HrHolds (msbBits ((c ++ (l ++ crcOf l c) : BitVec 32) ^^^ e)) := h
  rw [hword] at hheld
  rw [exec_crcHdrOk_of_holds hheld, decide_eq_false (mt (crc_of_error_eq_iff l c e).mp (crcSyndrome_ne_zero he hfew))]

end Sys2Proof.Machine
end

section
/-! SUPPORT. Headers counted in units (R149 to R157): where a header-stream bit lies, the units that hold it, the scramble mask,
and the fields as they are read back. -/

namespace Sys2Proof.Machine

/-! ## The header stream -/

/-- Each field of a units header fills its units alone: a stream bit is looked up by the field whose units it lies in, where
the padding of the field and the fill read as the 0 bits above the field's width (R149). -/
theorem unitHeaderBit_eq {b : Nat} (hb : 0 < b) (l c : BitVec 12) (k : Byte) (j : Nat) :
    unitHeaderBit b l c k j =
      if j < ceilDiv 12 b * b then l.getLsbD j
      else if j < 2 * ceilDiv 12 b * b then c.getLsbD (j - ceilDiv 12 b * b)
      else k.getLsbD (j - 2 * ceilDiv 12 b * b) := by
  have hunit : 12 ≤ ceilDiv 12 b * b := le_ceilDiv_mul 12 hb
  have hstart3 : 2 * ceilDiv 12 b * b = 2 * (ceilDiv 12 b * b) := Nat.mul_assoc ..
  unfold unitHeaderBit
  simp only [hstart3]
  generalize ceilDiv 12 b * b = start at hunit
  by_cases hl : j < start
  · rw [if_pos hl]
    by_cases h12 : j < 12
    · rw [if_pos h12]
    · rw [if_neg h12, if_neg (by omega), if_neg (by omega), BitVec.getLsbD_of_ge l j (by omega)]
  · rw [if_neg hl, if_neg (by omega)]
    by_cases hc : j < 2 * start
    · rw [if_pos hc]
      by_cases h12 : j < start + 12
      · rw [if_pos (by omega)]
      · rw [if_neg (by omega), if_neg (by omega), BitVec.getLsbD_of_ge c _ (by omega)]
    · rw [if_neg hc, if_neg (by omega)]
      by_cases h8 : j < 2 * start + 8
      · rw [if_pos (by omega)]
      · rw [if_neg (by omega), BitVec.getLsbD_of_ge k _ (by omega)]

/-! ## Headers received -/

/-- The positions of the three fields' bits in the header stream, the only ones that are examined (R149, R152). -/
def IsFieldBit (b j : Nat) : Prop :=
  j < 12 ∨ (ceilDiv 12 b * b ≤ j ∧ j < ceilDiv 12 b * b + 12) ∨ (2 * ceilDiv 12 b * b ≤ j ∧ j < 2 * ceilDiv 12 b * b + 8)

/-- Bits that are those of a units header at its fields read back as the fields, whatever the other bits are (R152). -/
theorem unitFields_of_fieldBits {b : Nat} (hb : 0 < b) {bits : Nat → Bool} {l c : BitVec 12} {k : Byte}
    (h : ∀ j, IsFieldBit b j → bits j = unitHeaderBit b l c k j) : unitFields bits b = (l, c, k) := by
  have hunit : 12 ≤ ceilDiv 12 b * b := le_ceilDiv_mul 12 hb
  have hstart3 : 2 * ceilDiv 12 b * b = 2 * (ceilDiv 12 b * b) := Nat.mul_assoc ..
  have hl : fieldLsb bits 0 12 = l.toNat := fieldLsb_eq_toNat fun i hi => by
    rw [Nat.zero_add, h i (.inl hi), unitHeaderBit_eq hb, if_pos (by omega)]
  have hc : fieldLsb bits (ceilDiv 12 b * b) 12 = c.toNat := fieldLsb_eq_toNat fun i hi => by
    rw [h _ (.inr (.inl (by omega))), unitHeaderBit_eq hb, if_neg (by omega), if_pos (by omega), Nat.add_sub_cancel_left]
  have hk : fieldLsb bits (2 * ceilDiv 12 b * b) 8 = k.toNat := fieldLsb_eq_toNat fun i hi => by
    rw [h _ (.inr (.inr (by omega))), unitHeaderBit_eq hb, if_neg (by omega), if_neg (by omega), Nat.add_sub_cancel_left]
  rw [unitFields, hl, hc, hk, ofNat_toNat_self, ofNat_toNat_self, ofNat_toNat_self]

/-- The span of a units header lies within a complete one, whichever of the two layouts is selected (R34, R112). -/
theorem unitSpan_le_of_valid {p : Params} {c : CfgRegs} (hv : c.valid p = true) (hu : c.variant.usesUnits = true) :
    c.htgt = c.hdrUnits.toNat * c.bps.toNat ∧ unitSpan c.bps.toNat ≤ c.hdrUnits.toNat * c.bps.toNat := by
  have hspan := hdrSpan_le_htgt hv
  cases hvar : c.variant <;> simp only [hdrSpan, CfgRegs.htgt, hvar, Variant.usesUnits] at hspan hu ⊢
  case default | counter | crc => cases hu
  case variableBits | ofdm => exact ⟨trivial, hspan⟩

/-- The sequence of a legal implementation covers every valid units header (R151). -/
theorem scrambledWidth_of_usesUnits {s : State} (hp : s.params.Legal) (hv : s.cfg.valid s.params = true)
    (hu : s.cfg.variant.usesUnits = true) : scrambledWidth s = .ok s.cfg.bps.toNat := by
  obtain ⟨-, -, ⟨-, hb⟩, ⟨-, hunits⟩, -⟩ := CfgRegs.valid_iff.mp hv
  have hspan := (unitSpan_le_of_valid hv hu).2
  have hseq : s.cfg.hdrUnits.toNat * s.cfg.bps.toNat ≤ s.params.scrambleSeq.length :=
    (Nat.mul_le_mul hunits hb).trans_eq (by rw [hp.seqLength, Nat.mul_comm])
  simp only [scrambledWidth, unitWidth_of_ne (bps_ne_zero_of_valid hv), if_pos (max_le hseq (hspan.trans hseq))]

theorem isFieldBit_lt_unitSpan {b j : Nat} (hb : 0 < b) (h : IsFieldBit b j) : j < unitSpan b := by
  have hunit : 12 ≤ ceilDiv 12 b * b := le_ceilDiv_mul 12 hb
  have hstart3 : 2 * ceilDiv 12 b * b = 2 * (ceilDiv 12 b * b) := Nat.mul_assoc ..
  unfold IsFieldBit at h
  unfold unitSpan
  omega

theorem unitPayloadSpan_le_unitSpan {b : Nat} (hb : 0 < b) : unitPayloadSpan b ≤ unitSpan b := by
  have hunit : 12 ≤ ceilDiv 12 b * b := le_ceilDiv_mul 12 hb
  have hstart3 : 2 * ceilDiv 12 b * b = 2 * (ceilDiv 12 b * b) := Nat.mul_assoc ..
  unfold unitPayloadSpan unitSpan
  omega

/-- A VariableBits header is judged and read from its fields (R152, R153). -/
theorem exec_variableBits_of_fields {s : State} {l c : BitVec 12} {k : Byte} (hne : s.cfg.bps ≠ 0#4)
    (hfields : unitFields s.hrCell s.cfg.bps.toNat = (l, c, k)) (hok : s.afterRead (unitSpan s.cfg.bps.toNat) = s)
    (hpay : s.afterRead (unitPayloadSpan s.cfg.bps.toNat) = s) :
    exec .variableBitsHdrOk s = .next { s with ret := .bit (decide (crcOf l c = k)) }
      ∧ exec .variableBitsHdrPayload s =
        .next { s with ret := .payload (l.setWidth 16) (plainRecord .variableBits (l.setWidth 16) 0 (c.setWidth 16) 0) } := by
  have hunit := unitWidth_of_ne hne
  constructor
  · show execVariableBitsHdrOk s = _
    simp only [execVariableBitsHdrOk, variableBitsHdrOk, hunit, hfields, hok]
    rfl
  · show execVariableBitsHdrPayload s = _
    simp only [execVariableBitsHdrPayload, variableBitsHdrPayload, hunit, hfields, hpay]
    rfl

/-- An OFDM header is judged by its descrambled fields (R156). -/
theorem exec_ofdmHdrOk_of_fields {s : State} {l c : BitVec 12} {k : Byte} (hw : scrambledWidth s = .ok s.cfg.bps.toNat)
    (hfields : unitFields s.hrDescrambled s.cfg.bps.toNat = (l, c, k))
    (hok : s.afterRead (unitSpan s.cfg.bps.toNat) = s) :
    exec .ofdmHdrOk s = .next { s with ret := .bit (decide (crcOf l c = k)) } := by
  show execOfdmHdrOk s = _
  simp only [execOfdmHdrOk, ofdmHdrOk, hw, hfields, hok]
  rfl

/-- An OFDM header is read from its descrambled fields, with the symbol count of its payload (R157). -/
theorem exec_ofdmHdrPayload_of_fields {s : State} {l c : BitVec 12} {k : Byte} {n : BitVec 32}
    (hw : scrambledWidth s = .ok s.cfg.bps.toNat) (hfields : unitFields s.hrDescrambled s.cfg.bps.toNat = (l, c, k))
    (hsym : ofdmSymbols (8 * l.toNat) s = .ok n) (hpay : s.afterRead (unitPayloadSpan s.cfg.bps.toNat) = s) :
    exec .ofdmHdrPayload s =
      .next { s with ret := .payload (l.setWidth 16) (plainRecord .ofdm (l.setWidth 16) 0 (c.setWidth 16) n) } := by
  show execOfdmHdrPayload s = _
  simp only [execOfdmHdrPayload, ofdmHdrPayload, hw, hfields, hsym, hpay]
  rfl

/-- A cell of a header that is held scrambled descrambles to the header's bit (R156). -/
theorem State.HrHolds.hrDescrambled_eq {s : State} {bits : List Bool}
    (h : s.HrHolds (bits.mapIdx fun j x => x ^^ (s.params.scrambleSeq[j]?).getD false)) {j : Nat} {x : Bool}
    (hx : bits[j]? = some x) : s.hrDescrambled j = x := by
  have hcell : s.hrCell j = (x ^^ (s.params.scrambleSeq[j]?).getD false) := h.hrCell_eq (by simp [hx])
  rw [State.hrDescrambled, hcell, Bool.xor_assoc, Bool.xor_self, Bool.xor_false]

/-- Settles O56: the field bits of the held header, descrambled in OFDM, read back as the fields, and every cell read lies
within the header. -/
theorem unitHeadersAreJudgedAndRead : Obligations.UnitHeadersAreJudgedAndRead := by
  intro l c k bits s hp hv hu hlen hbits
  obtain ⟨-, -, ⟨hb, -⟩, -⟩ := CfgRegs.valid_iff.mp hv
  obtain ⟨htgt, hspan⟩ := unitSpan_le_of_valid hv hu
  have hread : unitSpan s.cfg.bps.toNat ≤ bits.length := by omega
  have hreadPayload : unitPayloadSpan s.cfg.bps.toNat ≤ bits.length := (unitPayloadSpan_le_unitSpan hb).trans hread
  have hfield : ∀ j, IsFieldBit s.cfg.bps.toNat j → bits[j]? = some (unitHeaderBit s.cfg.bps.toNat l c k j) :=
    fun j hj => hbits j ((isFieldBit_lt_unitSpan hb hj).trans_le (hread.trans_eq hlen)) hj
  refine ⟨fun h => ?_, fun h => ?_⟩
  · have hfields := unitFields_of_fieldBits hb fun j hj => h.hrCell_eq (hfield j hj)
    exact exec_variableBits_of_fields (bps_ne_zero_of_valid hv) hfields (h.afterRead_eq hread) (h.afterRead_eq hreadPayload)
  · have hfields := unitFields_of_fieldBits hb fun j hj => h.hrDescrambled_eq (hfield j hj)
    have hw := scrambledWidth_of_usesUnits hp hv hu
    refine ⟨exec_ofdmHdrOk_of_fields hw hfields (h.afterRead_eq (by simpa using hread)), fun hvar => ?_⟩
    obtain ⟨n, hsym⟩ := exists_ofdmSymbols hv hvar (8 * l.toNat)
    have hnum : (BitVec.ofNat 32 (8 * l.toNat)).toNat = 8 * l.toNat := by
      have hlt := l.isLt
      rw [BitVec.toNat_ofNat]
      omega
    exact ⟨n, exec_ofdmSymbols_of_ok (by rwa [hnum]),
      exec_ofdmHdrPayload_of_fields hw hfields hsym (h.afterRead_eq (by simpa using hreadPayload))⟩

end Sys2Proof.Machine
end

section
/-! SUPPORT. Headers sent (R140 to R154, R160): the bytes each layout writes, and `FORMAT`, which emits them. -/

namespace Sys2Proof

/-! ## Numbers as bytes and as field values -/

/-- The bytes of a number are those of its low bits (R10). -/
theorem bytesBe_mod (w v : Nat) : bytesBe w (v % 2 ^ (8 * w)) = bytesBe w v := by
  apply List.ext_getElem?
  intro i
  rcases Nat.lt_or_ge i w with hi | hi
  · rw [bytesBe_getElem? hi, bytesBe_getElem? hi, byte_of_truncated (by omega)]
  · rw [List.getElem?_eq_none (by rwa [Machine.bytesBe_length]), List.getElem?_eq_none (by rwa [Machine.bytesBe_length])]

theorem field12_eq_ofNat {w : Nat} (v : BitVec w) : field12 v = BitVec.ofNat 12 v.toNat :=
  BitVec.eq_of_toNat_eq (by simp [field12])

theorem ofNat_mod_eq_field12 {w : Nat} (v : BitVec w) : BitVec.ofNat 12 (v.toNat % 4096) = field12 v :=
  BitVec.eq_of_toNat_eq (by simp [field12])

theorem field12_toNat {w : Nat} (v : BitVec w) : (field12 v).toNat = v.toNat % 4096 := by simp [field12]

end Sys2Proof

namespace Sys2Proof.Machine

/-- A field of a multi-byte overload in its plain form is big-endian (R62, R101). -/
theorem fieldBytes_bigEndian {n : Overload} {w : Nat} (hw : w ≤ n.bytes) (v : Nat) :
    fieldBytes n w v false = bytesBe w v := by
  rw [fieldBytes_eq hw, if_neg (by simp), bytesBe_mod]

theorem bigEndian16_ofNat (v : Nat) : bytesBe 2 v = bigEndian16 (BitVec.ofNat 16 v) := by
  have hlow : BitVec.ofNat 8 v = (BitVec.ofNat 16 v).extractLsb' 0 8 :=
    BitVec.eq_of_toNat_eq (by simp)
  have hhigh : BitVec.ofNat 8 (v / 256) = (BitVec.ofNat 16 v).extractLsb' 8 8 :=
    BitVec.eq_of_toNat_eq (by simp [Nat.shiftRight_eq_div_pow]; omega)
  rw [bytesBe, bytesLe, bytesLe, bytesLe, hlow, hhigh]
  rfl

/-- The counter after a 12-bit layout (R41, R146). -/
theorem counterAfter12_eq (v : Half) :
    counterAfter12 (field12 v) = BitVec.ofNat 16 ((v.toNat % 4096 + 1) % 4096) :=
  BitVec.eq_of_toNat_eq (by simp [counterAfter12, zext16, field12_toNat])

/-! ## The layout interface -/

theorem formatBytes_of_default {s : State} (h : s.cfg.variant = .default) (len : Word) :
    formatBytes len s = codeAndLengths len s := by
  simp only [formatBytes, h, defaultFormatBytes]

theorem formatBytes_of_counter {s : State} (h : s.cfg.variant = .counter) (len : Word) :
    formatBytes len s = counterFormatBytes len s := by
  simp only [formatBytes, h]

theorem formatBytes_of_crc {s : State} (h : s.cfg.variant = .crc) (len : Word) :
    formatBytes len s = .ok (crcFormatBytes len s) := by
  simp only [formatBytes, h]

theorem formatBytes_of_variableBits {s : State} (h : s.cfg.variant = .variableBits) (len : Word) :
    formatBytes len s = variableBitsFormatBytes len s := by
  simp only [formatBytes, h]

theorem formatBytes_of_ofdm {s : State} (h : s.cfg.variant = .ofdm) (len : Word) :
    formatBytes len s = ofdmFormatBytes len s := by
  simp only [formatBytes, h]

/-! ## What `FORMAT` answers -/

theorem formatCheck_of_units {len : Word} {c : CfgRegs} (h : c.variant.hasCode = false) : formatCheck len c = none := by
  simp [formatCheck, h]

theorem effL_of_hasCode {c : CfgRegs} (h : c.variant.hasCode = true) : c.effL = c.acLen.toNat := by
  simp [CfgRegs.effL, h]

theorem formatCheck_of_code {len : Word} {c : CfgRegs} (h : c.variant.hasCode = true) :
    formatCheck len c =
      if c.acLen.toNat % 8 ≠ 0 then some .fmtUnsup else if 65535 < len.toNat then some .fmtLen else none := by
  simp [formatCheck, h, effL_of_hasCode h]

theorem exec_format {s : State} (hf : s.fault = false) (len : Word) : exec (.format len) s = formatCommand len s :=
  gate_open hf

/-- A coded header is the access code and the target in whole bytes (R32, R33). -/
theorem headerNbytes_of_hasCode {c : CfgRegs} (h : c.variant.hasCode = true) :
    c.headerNbytes = (c.acLen.toNat + c.htgt) / 8 := by
  have hunits : ¬ c.variant.usesUnits = true := by
    revert h
    cases c.variant <;> decide
  rw [CfgRegs.headerNbytes, if_neg hunits, CfgRegs.headerNbits, effL_of_hasCode h]

/-- A `FORMAT` whose layout writes exactly `header_nbytes` bytes emits these bytes (R160). -/
theorem exec_format_of_bytes {s u : State} {len : Word} {bytes : List Byte} (hf : s.fault = false)
    (hc : formatCheck len s.cfg = none) (hu : formatBytes len s.hbClear = .ok u) (hbytes : u.hb = bytes)
    (hlen : bytes.length = s.cfg.headerNbytes) :
    exec (.format len) s = .next { s with hb := [], hdrOut := s.hdrOut ++ bytes, txCounter := u.txCounter,
                                          respOut := s.respOut ++ [⟨.ok, BitVec.ofNat 64 s.cfg.headerNbytes⟩] } := by
  have hemit : emitHeader s.cfg.headerNbytes u = .ok { u with hdrOut := u.hdrOut ++ bytes } := by
    rw [emitHeader, if_pos (by rw [hbytes, hlen]), hbytes, ← hlen, List.take_length]
  have hbuild : buildHeader len s = .ok { u with hdrOut := u.hdrOut ++ bytes, hb := [] } := by
    simp only [buildHeader, hu, hemit]
    rfl
  rw [exec_format hf, formatCommand, hc]
  simp only [hbuild]
  rw [formatBytes_frame hu]
  rfl

/-! ## Default and Counter -/

/-- The bytes that both coded layouts begin with: the access code and the two lengths (R140, R143). -/
def codedBytes (c : CfgRegs) (len : Word) : List Byte :=
  bytesBe (c.acLen.toNat / 8) c.acPattern.toNat
    ++ (bigEndian16 (BitVec.ofNat 16 len.toNat) ++ bigEndian16 (BitVec.ofNat 16 len.toNat))

theorem codedBytes_length (c : CfgRegs) (len : Word) : (codedBytes c len).length = c.acLen.toNat / 8 + 4 := by
  simp [codedBytes, bytesBe_length, bigEndian16]

theorem fieldBytes_half (v : Nat) : fieldBytes .bits16 2 v false = bigEndian16 (BitVec.ofNat 16 v) := by
  rw [fieldBytes_bigEndian (show 2 ≤ Overload.bits16.bytes from le_rfl), bigEndian16_ofNat]

theorem codeAndLengths_eq {s : State} (hcode : s.cfg.variant.hasCode = true) (hle : s.cfg.acLen.toNat ≤ 64)
    (hmod : s.cfg.acLen.toNat % 8 = 0) (len : Word) :
    codeAndLengths len s = .ok { s with hb := s.hb ++ codedBytes s.cfg len } := by
  have heff := effL_of_hasCode hcode
  obtain ⟨u, hu, -⟩ := exists_codeAndLengths (s := s) (by rwa [heff]) (by rwa [heff]) len
  have hwidth : s.cfg.acLen.toNat / 8 ≤ Overload.bits64.bytes := Nat.div_le_of_le_mul hle
  obtain ⟨-, rfl⟩ := codeAndLengths_ok hu
  rw [hu, heff, fieldBytes_half, fieldBytes_bigEndian hwidth, codedBytes]

theorem codeAndLengths_of_broken_code {s : State} (h : s.cfg.effL % 8 ≠ 0) (len : Word) :
    codeAndLengths len s = .error .formatPrecondition := if_neg h

/-- The bytes that Counter adds: `BPS` and the counter before it is incremented (R143). -/
def counterTail (s : State) : List Byte :=
  bigEndian16 (BitVec.ofNat 16 s.cfg.bps.toNat) ++ bigEndian16 s.txCounter

theorem counterFormatBytes_eq {s : State} {len : Word} {bytes : List Byte}
    (h : codeAndLengths len s = .ok { s with hb := s.hb ++ bytes }) :
    counterFormatBytes len s = .ok { s with hb := s.hb ++ (bytes ++ counterTail s), txCounter := s.txCounter + 1 } := by
  simp only [counterFormatBytes, h, State.addField, fieldBytes_half, ofNat_toNat_self, counterTail, List.append_assoc]

/-- Settles O50: the primitives write `codedBytes` and `counterTail`, which are as many bytes as `FORMAT` emits. -/
theorem codedHeadersOnTheWire : Obligations.CodedHeadersOnTheWire := by
  intro L s hcode hle hmod
  have hwritten : ∀ x : State, x.cfg = s.cfg → codeAndLengths L x = .ok { x with hb := x.hb ++ codedBytes s.cfg L } := by
    intro x hx
    rw [← hx] at hcode hle hmod ⊢
    exact codeAndLengths_eq hcode hle hmod L
  have hcheck : L.toNat ≤ 65535 → formatCheck L s.cfg = none := fun hL => by
    rw [formatCheck_of_code hcode, if_neg (by omega), if_neg (by omega)]
  refine ⟨congrArg outcome (hwritten s rfl), congrArg outcome (counterFormatBytes_eq (hwritten s rfl)),
    fun hf hL hvar => ?_, fun hf hL hvar => ?_⟩
  · have htgt : s.cfg.htgt = 32 := by simp only [CfgRegs.htgt, hvar]
    have hbytes : s.cfg.headerNbytes = s.cfg.acLen.toNat / 8 + 4 := by
      rw [headerNbytes_of_hasCode hcode, htgt]
      omega
    have hformat := (formatBytes_of_default (s := s.hbClear) hvar L).trans (hwritten s.hbClear rfl)
    rw [exec_format_of_bytes hf (hcheck hL) hformat (List.nil_append _) ((codedBytes_length _ _).trans hbytes.symm), hbytes]
    rfl
  · have htgt : s.cfg.htgt = 64 := by simp only [CfgRegs.htgt, hvar]
    have hbytes : s.cfg.headerNbytes = s.cfg.acLen.toNat / 8 + 8 := by
      rw [headerNbytes_of_hasCode hcode, htgt]
      omega
    have hformat := (formatBytes_of_counter (s := s.hbClear) hvar L).trans (counterFormatBytes_eq (hwritten s.hbClear rfl))
    have hlen : (codedBytes s.cfg L ++ counterTail s.hbClear).length = s.cfg.headerNbytes := by
      simp [codedBytes_length, hbytes, counterTail, bigEndian16]
    rw [exec_format_of_bytes hf (hcheck hL) hformat (List.nil_append _) hlen, hbytes]
    rfl

/-! ## CRC -/

/-- The header word of the CRC layout as a number (R146). -/
theorem crcHeaderWord_toNat (l c : BitVec 12) :
    (crcHeaderWord l c).toNat = c.toNat * 2 ^ 20 + l.toNat * 2 ^ 8 + (crcOf l c).toNat := by
  have hl := l.isLt
  have hk := (crcOf l c).isLt
  have hlow : (l ++ crcOf l c).toNat = l.toNat * 2 ^ 8 + (crcOf l c).toNat := by
    rw [BitVec.toNat_append, ← Nat.shiftLeft_add_eq_or_of_lt hk, Nat.shiftLeft_eq]
  have hlt : (l ++ crcOf l c).toNat < 2 ^ 20 := (l ++ crcOf l c).isLt
  have hword : (c ++ (l ++ crcOf l c)).toNat = c.toNat * 2 ^ 20 + (l ++ crcOf l c).toNat := by
    rw [BitVec.toNat_append, ← Nat.shiftLeft_add_eq_or_of_lt hlt, Nat.shiftLeft_eq]
  exact hword.trans (by rw [hlow, Nat.add_assoc])

/-- A 32-bit number as four bytes (R62). -/
theorem bytesBe_four (v : Nat) : bytesBe 4 v =
    [BitVec.ofNat 8 (v / 2 ^ 24), BitVec.ofNat 8 (v / 2 ^ 16), BitVec.ofNat 8 (v / 2 ^ 8), BitVec.ofNat 8 v] := by
  simp [bytesBe, bytesLe, Nat.div_div_eq_div_mul]

theorem crcFormatBytes_eq (len : Word) (s : State) :
    crcFormatBytes len s = { s with
      hb := s.hb ++ bytesBe 4 (crcHeaderWord (field12 len) (field12 s.txCounter)).toNat
      txCounter := counterAfter12 (field12 s.txCounter) } := by
  rw [← fieldBytes_bigEndian (show 4 ≤ Overload.bits32.bytes from le_rfl)]
  rfl

/-- Settles O51: the four bytes are those of `crcHeaderWord_toNat`. -/
theorem crcHeaderOnTheWire : Obligations.CrcHeaderOnTheWire := by
  intro L s
  have hword : (crcHeaderWord (field12 L) (field12 s.txCounter)).toNat = s.txCounter.toNat % 4096 * 2 ^ 20
      + L.toNat % 4096 * 2 ^ 8
      + (crcOf (BitVec.ofNat 12 (L.toNat % 4096)) (BitVec.ofNat 12 (s.txCounter.toNat % 4096))).toNat := by
    rw [crcHeaderWord_toNat, field12_toNat, field12_toNat, ofNat_mod_eq_field12, ofNat_mod_eq_field12]
  intro l c word bytes
  have hbytes : bytesBe 4 (crcHeaderWord (field12 L) (field12 s.txCounter)).toNat = bytes := by
    rw [hword, bytesBe_four]
  refine ⟨?_, fun hf hvar => ?_⟩
  · show Host.Outcome.next (crcFormatBytes L s) = _
    rw [crcFormatBytes_eq, hbytes, counterAfter12_eq]
  · have hformat : formatBytes L s.hbClear = .ok (crcFormatBytes L s.hbClear) := by
      simp only [formatBytes, State.hbClear_cfg, hvar]
    have hhb : (crcFormatBytes L s.hbClear).hb = bytes := by
      rw [crcFormatBytes_eq]
      exact hbytes
    have hn : s.cfg.headerNbytes = 4 := by
      simp [CfgRegs.headerNbytes, CfgRegs.headerNbits, CfgRegs.effL, CfgRegs.htgt, hvar, Variant.usesUnits, Variant.hasCode]
    rw [exec_format_of_bytes hf (formatCheck_of_units (by rw [hvar]; rfl)) hformat hhb hn.symm, hn, ← counterAfter12_eq]
    rfl

/-- Settles O53: the checks in order, the primitives' own precondition, and `exists_buildHeader`. -/
theorem formatRefusalsAndLength : Obligations.FormatRefusalsAndLength := by
  refine ⟨fun L s hf hcode => ⟨fun hmod => ?_, fun hmod hL => ?_⟩, fun L s hmod => ?_, fun L s hp hv hf hcode => ?_⟩
  · rw [exec_format hf, formatCommand_of_refused ((formatCheck_of_code hcode).trans (if_pos hmod)), State.fail_eq]
    simp [Status.code]
  · have hcheck : formatCheck L s.cfg = some .fmtLen := by
      rw [formatCheck_of_code hcode, if_neg (not_not.mpr hmod), if_pos hL]
    rw [exec_format hf, formatCommand_of_refused hcheck, State.fail_eq]
    simp [Status.code]
  · have herr := codeAndLengths_of_broken_code hmod L
    have hcounter : counterFormatBytes L s = .error .formatPrecondition := by rw [counterFormatBytes, herr]
    exact ⟨congrArg outcome herr, congrArg outcome hcounter⟩
  · have hcheck : formatCheck L s.cfg = none := by
      cases hvar : s.cfg.variant.hasCode with
      | false => exact formatCheck_of_units hvar
      | true =>
        obtain ⟨hmod, hL⟩ := hcode hvar
        rw [formatCheck_of_code hvar, if_neg (not_not.mpr hmod), if_neg (by omega)]
    obtain ⟨u, hu⟩ := exists_buildHeader hp hv hcheck
    have hexec : exec (.format L) s = .next (u.respond .ok (BitVec.ofNat 64 s.cfg.headerNbytes)) := by
      simp only [exec_format hf, formatCommand, hcheck, hu]
    obtain ⟨v, -, hlen, rfl⟩ := buildHeader_ok hu
    exact ⟨_, v.hb.take s.cfg.headerNbytes, hexec, rfl, List.length_take_of_le hlen, rfl⟩

/-! ## The units of a header -/

/-- The byte of unit `k` holds its `b` bits of a stream in its low bits, bit 0 first, and 0 above (R64, R150). -/
def HoldsUnit (b : Nat) (stream : Nat → Bool) (k : Nat) (x : Byte) : Prop :=
  ∀ q < 8, x.getLsbD q = (decide (q < b) && stream (k * b + q))

/-- The same bits may lie elsewhere in another stream. -/
theorem HoldsUnit.congr {b k k' : Nat} {f g : Nat → Bool} {x : Byte} (h : HoldsUnit b f k' x)
    (hfg : ∀ q < b, f (k' * b + q) = g (k * b + q)) : HoldsUnit b g k x := by
  intro q hq
  rw [h q hq]
  by_cases hqb : q < b
  · rw [hfg q hqb]
  · simp [hqb]

theorem HoldsUnit.xor {b k : Nat} {f g : Nat → Bool} {x y : Byte} (hx : HoldsUnit b f k x) (hy : HoldsUnit b g k y) :
    HoldsUnit b (fun j => f j ^^ g j) k (x ^^^ y) := by
  intro q hq
  rw [BitVec.getLsbD_xor, hx q hq, hy q hq, Bool.and_xor_distrib_left]

theorem holdsUnit_zero {b k : Nat} {f : Nat → Bool} (h : ∀ q < b, f (k * b + q) = false) : HoldsUnit b f k 0#8 := by
  intro q _
  by_cases hqb : q < b
  · simp [h q hqb]
  · simp [hqb]

theorem packUnits_length (b v width : Nat) : (packUnits b v width).length = ceilDiv width b := by simp [packUnits]

/-- A packed value is the stream of its bits, least significant first (R150). -/
theorem packUnits_holds {b width k : Nat} (hk : k < ceilDiv width b) (v : Nat) :
    ∃ x, (packUnits b v width)[k]? = some x ∧ HoldsUnit b v.testBit k x := by
  refine ⟨_, by rw [packUnits, List.getElem?_map, List.getElem?_range hk]; rfl, fun q hq => ?_⟩
  rw [BitVec.getLsbD_ofNat, Nat.testBit_mod_two_pow, Nat.testBit_div_two_pow, Nat.add_comm q]
  simp [hq]

theorem fieldUnits_length (b : Nat) (l c : BitVec 12) : (fieldUnits b l c).length = minUnits b := by
  simp only [fieldUnits, List.length_append, packUnits_length, minUnits]
  omega

/-- The units of the three fields hold the header stream, for each field in its own units (R149, R150). -/
theorem fieldUnits_holds {b k : Nat} (hb : 0 < b) (hk : k < minUnits b) (l c : BitVec 12) :
    ∃ x, (fieldUnits b l c)[k]? = some x ∧ HoldsUnit b (unitHeaderBit b l c (crcOf l c)) k x := by
  have hin : ∀ {i n q : Nat}, i < n → q < b → i * b + q < n * b := fun {i n q} hi hq =>
    calc i * b + q < i * b + b := by omega
      _ = (i + 1) * b := (Nat.succ_mul i b).symm
      _ ≤ n * b := Nat.mul_le_mul_right b hi
  have hstart3 : 2 * ceilDiv 12 b * b = ceilDiv 12 b * b + ceilDiv 12 b * b := by ring
  rw [fieldUnits, List.append_assoc]
  rcases Nat.lt_or_ge k (ceilDiv 12 b) with hlen | hlen
  · obtain ⟨x, hx, hbits⟩ := packUnits_holds hlen l.toNat
    rw [List.getElem?_append_left (by rwa [packUnits_length])]
    refine ⟨x, hx, hbits.congr fun q hq => ?_⟩
    rw [unitHeaderBit_eq hb, if_pos (hin hlen hq), BitVec.testBit_toNat]
  · obtain ⟨i, rfl⟩ := Nat.exists_eq_add_of_le hlen
    rw [List.getElem?_append_right (by rwa [packUnits_length]), packUnits_length, Nat.add_sub_cancel_left]
    rcases Nat.lt_or_ge i (ceilDiv 12 b) with hctr | hctr
    · obtain ⟨x, hx, hbits⟩ := packUnits_holds hctr c.toNat
      rw [List.getElem?_append_left (by rwa [packUnits_length])]
      refine ⟨x, hx, hbits.congr fun q hq => ?_⟩
      have hlt := hin hctr hq
      rw [Nat.add_mul, Nat.add_assoc, unitHeaderBit_eq hb, if_neg (by omega), if_pos (by omega), Nat.add_sub_cancel_left,
        BitVec.testBit_toNat]
    · obtain ⟨i, rfl⟩ := Nat.exists_eq_add_of_le hctr
      have hcrc : i < ceilDiv 8 b := by rw [minUnits] at hk; omega
      obtain ⟨x, hx, hbits⟩ := packUnits_holds hcrc (crcOf l c).toNat
      rw [List.getElem?_append_right (by rw [packUnits_length]; exact Nat.le_add_right _ _), packUnits_length,
        Nat.add_sub_cancel_left]
      refine ⟨x, hx, hbits.congr fun q hq => ?_⟩
      have hpos : (ceilDiv 12 b + (ceilDiv 12 b + i)) * b + q = 2 * ceilDiv 12 b * b + (i * b + q) := by ring
      rw [hpos, unitHeaderBit_eq hb, if_neg (by omega), if_neg (by omega), Nat.add_sub_cancel_left, BitVec.testBit_toNat]

/-- Above the last field the header stream is 0 (R149). -/
theorem unitHeaderBit_of_ge {b j : Nat} (hb : 0 < b) (hj : unitSpan b ≤ j) (l c : BitVec 12) (k : Byte) :
    unitHeaderBit b l c k j = false := by
  have hstart3 : 2 * ceilDiv 12 b * b = ceilDiv 12 b * b + ceilDiv 12 b * b := by ring
  unfold unitSpan at hj
  rw [unitHeaderBit_eq hb, if_neg (by omega), if_neg (by omega), BitVec.getLsbD_of_ge k _ (by omega)]

theorem headerUnits_length {b n : Nat} (h : minUnits b ≤ n) (l c : BitVec 12) : (headerUnits b n l c).length = n := by
  simp only [headerUnits, List.length_append, List.length_replicate, fieldUnits_length]
  omega

/-- The units of a header hold the header stream, fill included (R149, R150). -/
theorem headerUnits_holds {b n k : Nat} (hb : 0 < b) (hk : k < n) (l c : BitVec 12) :
    ∃ x, (headerUnits b n l c)[k]? = some x ∧ HoldsUnit b (unitHeaderBit b l c (crcOf l c)) k x := by
  rw [headerUnits, fieldUnits_length]
  rcases Nat.lt_or_ge k (minUnits b) with hfield | hfill
  · rw [List.getElem?_append_left (by rwa [fieldUnits_length])]
    exact fieldUnits_holds hb hfield l c
  · rw [List.getElem?_append_right (by rwa [fieldUnits_length]), fieldUnits_length]
    refine ⟨0#8, by simp [List.getElem?_replicate]; omega, holdsUnit_zero fun q _ => unitHeaderBit_of_ge hb ?_ l c _⟩
    calc unitSpan b ≤ minUnits b * b := unitSpan_le_minUnits_mul hb
      _ ≤ k * b := Nat.mul_le_mul_right b hfill
      _ ≤ k * b + q := Nat.le_add_right _ _

/-- The mask of a unit is its bits of the scramble sequence (R154). -/
theorem scrambleUnit_holds (p : Params) (b k : Nat) : HoldsUnit b (seqBit p) k (scrambleUnit p b k) := by
  intro q hq
  rw [scrambleUnit, BitVec.getLsbD_ofNat]
  by_cases hqb : q < b
  · simp [fieldLsb_testBit (seqBit p) (k * b) hqb, hq, hqb]
  · have hlt : fieldLsb (seqBit p) (k * b) b < 2 ^ q :=
      (fieldLsb_lt _ _ b).trans_le (Nat.pow_le_pow_right Nat.two_pos (Nat.not_lt.mp hqb))
    simp [Nat.testBit_lt_two_pow hlt, hqb]

/-! ## VariableBits and OFDM -/

/-- The VariableBits header of a state (R150). -/
def plainUnits (s : State) (len : Word) : List Byte :=
  headerUnits s.cfg.bps.toNat s.cfg.hdrUnits.toNat (field12 len) (field12 s.txCounter)

/-- The OFDM header of a state: the VariableBits header under the mask (R154). -/
def mixedUnits (s : State) (len : Word) : List Byte :=
  (plainUnits s len).mapIdx fun k x => x ^^^ scrambleUnit s.params s.cfg.bps.toNat k

theorem variableBitsFormatBytes_eq {s : State} (h : s.cfg.bps ≠ 0#4) (len : Word) :
    variableBitsFormatBytes len s = .ok { s with hb := s.hb ++ plainUnits s len
                                                 txCounter := counterAfter12 (field12 s.txCounter) } := by
  obtain ⟨u, hu, -⟩ := exists_variableBitsFormatBytes h len
  rw [hu, variableBitsFormatBytes_ok hu, plainUnits]

/-- In a valid configuration the header is `HDR_UNITS` bytes (R30, R150). -/
theorem plainUnits_length {s : State} (hv : s.cfg.valid s.params = true) (hu : s.cfg.variant.usesUnits = true) (len : Word) :
    (plainUnits s len).length = s.cfg.hdrUnits.toNat := by
  obtain ⟨-, -, -, -, -, -, -, hfit, -⟩ := CfgRegs.valid_iff.mp hv
  exact headerUnits_length (by simpa [CfgRegs.unitsFit, hu] using hfit) _ _

theorem mixedUnits_length (s : State) (len : Word) : (mixedUnits s len).length = (plainUnits s len).length :=
  List.length_mapIdx

/-- OFDM written into the empty buffer masks every unit (R154). -/
theorem ofdmFormatBytes_eq {s : State} (hp : s.params.Legal) (hv : s.cfg.valid s.params = true)
    (hu : s.cfg.variant.usesUnits = true) (hempty : s.hb = []) (len : Word) :
    ofdmFormatBytes len s = .ok { s with hb := mixedUnits s len, txCounter := counterAfter12 (field12 s.txCounter) } := by
  have hmask : ((plainUnits s len).mapIdx fun k x =>
      if k < s.cfg.hdrUnits.toNat then x ^^^ scrambleUnit s.params s.cfg.bps.toNat k else x) = mixedUnits s len := by
    apply List.ext_getElem?
    intro k
    rw [mixedUnits, List.getElem?_mapIdx, List.getElem?_mapIdx]
    refine Option.map_congr fun x hx => if_pos ?_
    rw [← plainUnits_length hv hu len]
    exact (List.getElem?_eq_some_iff.mp hx).1
  simp only [ofdmFormatBytes, scrambledWidth_of_usesUnits hp hv hu, variableBitsFormatBytes_eq (bps_ne_zero_of_valid hv),
    State.scramble, hempty, List.nil_append, hmask]

/-- The header that `FORMAT` emits in a units layout: masked in OFDM only (R160). -/
theorem exec_format_of_usesUnits {s : State} (hp : s.params.Legal) (hv : s.cfg.valid s.params = true)
    (hu : s.cfg.variant.usesUnits = true) (hf : s.fault = false) (len : Word) :
    exec (.format len) s = .next { s with
      hb := [], hdrOut := s.hdrOut ++ (if s.cfg.variant = .ofdm then mixedUnits s len else plainUnits s len),
      txCounter := counterAfter12 (field12 s.txCounter),
      respOut := s.respOut ++ [⟨.ok, BitVec.ofNat 64 s.cfg.hdrUnits.toNat⟩] } := by
  have hbytes : s.cfg.headerNbytes = s.cfg.hdrUnits.toNat := if_pos hu
  have hlen : (plainUnits s len).length = s.cfg.headerNbytes := (plainUnits_length hv hu len).trans hbytes.symm
  rw [← hbytes]
  cases hvar : s.cfg.variant <;> rw [hvar, Variant.usesUnits] at hu
  case default | counter | crc => cases hu
  case variableBits =>
    have hformat := (formatBytes_of_variableBits (s := s.hbClear) hvar len).trans
      (variableBitsFormatBytes_eq (s := s.hbClear) (bps_ne_zero_of_valid hv) len)
    exact exec_format_of_bytes hf (formatCheck_of_units (by rw [hvar]; rfl)) hformat (List.nil_append _) hlen
  case ofdm =>
    have hformat := (formatBytes_of_ofdm (s := s.hbClear) hvar len).trans
      (ofdmFormatBytes_eq (s := s.hbClear) hp hv (by rw [State.hbClear_cfg, hvar]; rfl) rfl len)
    exact exec_format_of_bytes hf (formatCheck_of_units (by rw [hvar]; rfl)) hformat rfl
      ((mixedUnits_length s len).trans hlen)

/-- Settles O52: unit by unit, the header holds the header stream and the mask the scramble sequence. -/
theorem unitHeadersOnTheWire : Obligations.UnitHeadersOnTheWire := by
  intro L s hp hv hu b units l c next
  obtain ⟨-, -, ⟨hb, -⟩, -⟩ := CfgRegs.valid_iff.mp hv
  have hl : field12 L = l := field12_eq_ofNat L
  have hc : field12 s.txCounter = c := field12_eq_ofNat s.txCounter
  have hnext : counterAfter12 (field12 s.txCounter) = next := counterAfter12_eq s.txCounter
  have hlen : (plainUnits s L).length = units := plainUnits_length hv hu L
  rw [← hnext]
  refine ⟨plainUnits s L, mixedUnits s L, hlen, (mixedUnits_length s L).trans hlen, fun k q hk hq => ?_,
    congrArg outcome (variableBitsFormatBytes_eq (bps_ne_zero_of_valid hv) L),
    fun hempty => congrArg outcome (ofdmFormatBytes_eq hp hv hu hempty L), fun hf => exec_format_of_usesUnits hp hv hu hf L⟩
  obtain ⟨x, hx, hplain⟩ := headerUnits_holds (b := b) (n := units) hb hk (field12 L) (field12 s.txCounter)
  have hmixed := hplain.xor (scrambleUnit_holds s.params b k)
  rw [hl, hc] at hplain hmixed
  have hy : (mixedUnits s L)[k]? = some (x ^^^ scrambleUnit s.params b k) := by
    rw [mixedUnits, List.getElem?_mapIdx, plainUnits, hx]
    rfl
  exact ⟨x, x ^^^ scrambleUnit s.params b k, hx, hy, hplain q hq, hmixed q hq⟩

end Sys2Proof.Machine
end

section
/-! SUPPORT. Every step keeps the invariant (R30, R61, R182): each shared operation keeps it, hence each kind of effect that a
command can have. -/

namespace Sys2Proof.Machine

/-! ## Responses, errors, resets and reads -/

theorem State.Inv.respond {s : State} (h : s.Inv) (st : Status) (v : Word) : (s.respond st v).Inv := { h with }

/-- A failure leaves in `LAST_ERR` one of the codes 1 to 5 (R84, R222). -/
theorem State.Inv.fail {s : State} (h : s.Inv) {st : Status} (hst : st ≠ .ok) : (s.fail st).Inv := by
  have hcode : st.code.toNat ≤ 5 ∧ st.code ≠ 0 := by revert hst; cases st <;> decide
  exact { h with errCode := hcode.1, faulted := fun _ => hcode.2 }

/-- A framing reset under any valid configuration gives the framing registers their reset values (R190, R241). -/
theorem State.Inv.framingReset {s : State} (h : s.Inv) {new : CfgRegs} (hv : new.valid s.params = true) :
    (State.framingReset { s with cfg := new }).Inv :=
  { h with
    config := hv
    collecting := nofun
    notCollecting := fun _ => rfl
    counting := nofun
    notCounting := fun _ => rfl
    noHistory := fun _ => rfl }

theorem State.Inv.resetAll {s : State} (h : s.Inv) : s.resetAll.Inv :=
  { h with
    config := CfgRegs.reset_valid h.params
    collecting := nofun
    notCollecting := fun _ => rfl
    counting := nofun
    notCounting := fun _ => rfl
    noHistory := fun _ => rfl
    errCode := Nat.zero_le 5
    faulted := nofun }

theorem State.Inv.afterReadReg {s : State} (h : s.Inv) (r : Nat) : (s.afterReadReg r).Inv := by
  rw [afterReadReg_frame]
  exact { h with }

/-- `FORMAT` leaves the buffer empty (R61, R160). -/
theorem State.Inv.buildHeader {s u : State} {len : Word} (h : s.Inv) (hb : buildHeader len s = .ok u) : u.Inv := by
  obtain ⟨v, -, -, rfl⟩ := buildHeader_ok hb
  exact { h with buffer := rfl }

/-! ## A stream bit -/

theorem htgt_pos_of_valid {p : Params} {c : CfgRegs} (hv : c.valid p = true) : 0 < c.htgt :=
  Nat.lt_of_lt_of_le (by decide) (minUnitsAndShortestHeader.2 p c hv).1

/-- A complete header fits the cells (R34, R38). -/
theorem State.Inv.htgt_le_cells {s : State} (h : s.Inv) : s.cfg.htgt ≤ s.hrBits.length :=
  ((minUnitsAndShortestHeader.2 _ _ h.config).2 h.params).trans_eq h.cells.symm

/-- Storing a bit below the target does not wrap `HR.len`: the register has at most 8192 cells (R8, R38). -/
theorem State.Inv.hrLen_succ {s : State} (h : s.Inv) (hlt : s.hrLen.toNat < s.cfg.htgt) :
    (s.hrLen + 1).toNat = s.hrLen.toNat + 1 := by
  have hcap : s.params.hrCap ≤ 8192 := by
    have hunits := h.params.unitsHigh
    unfold Params.hrCap
    omega
  have hroom := (minUnitsAndShortestHeader.2 _ _ h.config).2 h.params
  bv_omega

/-- A search that finds its access code starts an empty header (R125, R171). -/
theorem State.Inv.sync {s : State} (h : s.Inv) (hf : s.fsm = .syncSearch) : s.sync.Inv :=
  { h with
    collecting := fun _ => htgt_pos_of_valid h.config
    notCollecting := fun _ => rfl
    counting := nofun
    notCounting := fun _ => h.notCounting (by simp [hf]) }

theorem State.Inv.emptyCodeMove {s : State} (h : s.Inv) : (emptyCodeMove s).Inv := by
  by_cases hs : s.fsm = .syncSearch ∧ s.cfg.effL = 0
  · rw [emptyCodeMove_of_empty hs.1 hs.2]
    exact h.sync hs.1
  · rwa [emptyCodeMove_of_not hs]

/-- A search bit enters the correlator only under a non-empty code (R37, R171). -/
theorem State.Inv.searchBit {s : State} (h : s.Inv) (hf : s.fsm = .syncSearch) (he : s.cfg.effL ≠ 0) (b : Bool) :
    (searchBit b s).Inv := by
  have hcounted : (corrStep b s).1.skipBit.Inv := { h with noHistory := fun h0 => absurd h0 he }
  unfold Machine.searchBit
  split
  · exact hcounted.sync hf
  · exact hcounted

/-- The last bit of a payload returns to the search (R174). -/
theorem State.Inv.payloadBit {s u : State} (h : s.Inv) (hf : s.fsm = .haveHeader) (hp : payloadBit s = .ok u) :
    u.Inv := by
  obtain ⟨-, rfl⟩ := payloadBit_ok hp
  by_cases hlast : s.payloadRemain - 1 = 0#32
  · rw [if_pos hlast]
    exact { h with
      collecting := nofun
      notCollecting := fun _ => h.notCollecting (by simp [hf])
      counting := nofun
      notCounting := fun _ => hlast }
  · rw [if_neg hlast]
    exact { h with counting := fun _ => hlast, notCounting := fun hno => absurd hf hno }

/-- Judging a header that a state within the invariant has just completed empties the register and, where it starts a payload,
leaves bits of it to count (R172, R175). -/
theorem State.Inv.judgeHeader {s u : State} {bits : List Bool} {len : BitVec 14} {skip : Word} {e : Bool} (h : s.Inv)
    (hf : s.fsm = .haveSync) (hbits : bits.length = s.hrBits.length)
    (hj : judgeHeader { s with hrBits := bits, hrLen := len, nskip := skip } = .ok (u, e)) : u.Inv := by
  have hremain : s.payloadRemain = 0 := h.notCounting (by simp [hf])
  have hcells : bits.length = s.params.hrCap := hbits.trans h.cells
  obtain ⟨-, -, rfl⟩ | ⟨-, -, len, r, n, -, -, rfl⟩ := judgeHeader_cases hj
  · rw [afterRead_frame]
    exact { h with
      cells := hcells
      collecting := nofun
      notCollecting := fun _ => rfl
      counting := nofun
      notCounting := fun _ => hremain }
  · rw [afterRead_frame]
    obtain ⟨-, hstart⟩ | ⟨hne, hstart⟩ := startPayload_cases n (State.deliver r _) <;> rw [hstart]
    · exact { h with
        cells := hcells
        collecting := nofun
        notCollecting := fun _ => rfl
        counting := nofun
        notCounting := fun _ => hremain }
    · exact { h with
        cells := hcells
        collecting := nofun
        notCollecting := fun _ => rfl
        counting := fun _ => hne
        notCounting := fun hno => absurd rfl hno }

/-- A header bit is stored below the target, or completes the header (R110, R170). -/
theorem State.Inv.headerBit {s u : State} {b e : Bool} (h : s.Inv) (hf : s.fsm = .haveSync)
    (hb : headerBit b s = .ok (u, e)) : u.Inv := by
  obtain ⟨v, hv, hjudge⟩ := headerBit_cases hb
  obtain ⟨-, rfl⟩ := hrInsert_ok hv
  obtain ⟨-, hj⟩ | ⟨hshort, -, rfl⟩ := hjudge
  · exact h.judgeHeader hf List.length_set hj
  · have hlt := h.collecting hf
    have hsucc := h.hrLen_succ hlt
    change (s.hrLen + 1).toNat ≠ s.cfg.htgt at hshort
    exact { h with
      cells := List.length_set.trans h.cells
      collecting := fun _ => show (s.hrLen + 1).toNat < s.cfg.htgt by omega
      notCollecting := fun hno => absurd hf hno }

/-- A consumed bit keeps the invariant, in whatever state it is consumed (R170, R182). -/
theorem State.Inv.consumeBit {s u : State} {b e : Bool} (h : s.Inv) (hc : consumeBit b s = .ok (u, e)) : u.Inv := by
  have hmove := h.emptyCodeMove
  obtain ⟨hf, -, rfl⟩ | ⟨hf, hh⟩ | ⟨hf, -, hp⟩ := consumeBit_cases hc
  · have hcode := ((emptyCodeMove_searching_iff s).mp hf).2
    exact hmove.searchBit hf (by rwa [emptyCodeMove_frame]) b
  · exact hmove.headerBit hf hh
  · exact hmove.payloadBit hf hp

/-! ## Every step -/

theorem CommandEffect.inv {i : Instr} {s u : State} (h : CommandEffect s i u) (hinv : s.Inv) : u.Inv := by
  cases h with
  | nop => exact hinv.respond _ _
  | reset => exact hinv.resetAll.respond _ _
  | syncReset => exact (hinv.framingReset hinv.config).respond _ _
  | readReg => exact (hinv.afterReadReg _).respond _ _
  | configured _ _ hv => exact (hinv.framingReset hv).respond _ _
  | pushed _ _ hc => exact (hinv.consumeBit hc).respond _ _
  | formatted _ _ hb => exact (hinv.buildHeader hb).respond _ _
  | failed _ hst => exact hinv.fail hst

/-- Settles O9: an idle step changes nothing, a refused word fails, and every kind of effect of a decoded command keeps the
invariant (`CommandEffect.inv`). -/
theorem everyStepKeepsTheInvariant : Obligations.EveryStepKeepsTheInvariant := by
  intro s u hinv h
  cases hs : s.cmdIn with
  | nil =>
    rw [step_of_idle hs] at h
    cases h
    exact hinv
  | cons c rest =>
    have htaken := hinv.takeCommand rest
    cases hd : decode c with
    | error e =>
      rw [step_of_refused hs hd] at h
      cases h
      exact htaken.fail (by decide)
    | ok i =>
      rw [step_of_decode hs hd] at h
      exact (exec_effect (OpcodeRow.of_decode hd).isCommand h).inv htaken

end Sys2Proof.Machine
end

section
/-! SUPPORT. One pushed bit and bursts of them (R170 to R179): the states a push leaves, judging a complete header by the
layout's own instructions, and what a burst keeps. -/

namespace Sys2Proof.Machine

/-! ## A push is a consumed bit -/

theorem exec_consumeBit_of_ok {b e : Bool} {s u : State} (h : consumeBit b s = .ok (u, e)) :
    exec (.consumeBit b) s = .next (u.returns (.bit e)) := by
  show execConsumeBit b s = _
  rw [execConsumeBit, h]

/-- A push that meets a situation the spec rules out stops the machine (log entry 10). -/
theorem exec_pushBit_of_error {b : Bool} {s : State} {f : Fault} (hf : s.fault = false)
    (h : consumeBit b s = .error f) : exec (.pushBit b) s = .fault f := by
  show gate (pushStream b) s = _
  rw [gate_open hf, pushStream, h]

/-- A soft push is the push of its sliced bit (R178). -/
theorem exec_pushSoft (x : BitVec 32) (s : State) : exec (.pushSoft x) s = exec (.pushBit (sliceBit x)) s := rfl

/-- Settles O41: within the invariant the bit is consumed (`exists_consumeBit`), which leaves the responses and the last
primitive's value alone (`consumeBit_frame`). -/
theorem pushBitIsConsumeBitWithAResponse : Obligations.PushBitIsConsumeBitWithAResponse := by
  intro b s hinv
  obtain ⟨⟨u, e⟩, hc⟩ := exists_consumeBit hinv b
  obtain ⟨rs, -, hu⟩ := consumeBit_frame hc
  have hret : u.ret = s.ret := by rw [hu]
  have hresp : u.respOut = s.respOut := by rw [hu]
  refine ⟨u, e, hret, exec_consumeBit_of_ok hc, fun hf => ?_⟩
  rw [exec_pushBit_of_consumeBit hf hc, ← hresp]
  rfl

/-- Settles O35: the flag of the consumed bit counts the records it appended (`consumeBit_frame`), and the bit of a soft push
is the range of `sliceBit_eq`. -/
theorem pushCompletesAndReportsARecord : Obligations.PushCompletesAndReportsARecord := by
  refine ⟨fun b s hinv hf => ?_, fun x s hinv hf => ?_⟩
  · obtain ⟨⟨u, e⟩, hc⟩ := exists_consumeBit hinv b
    obtain ⟨rs, hlen, hu⟩ := consumeBit_frame hc
    have hflag : flagWord e = BitVec.ofNat 64 rs.length := by rw [hlen]; cases e <;> rfl
    have hrec : u.recOut = s.recOut ++ rs := by rw [hu]
    have hresp : u.respOut = s.respOut := by rw [hu]
    exact ⟨_, rs, exec_pushBit_of_consumeBit hf hc, hrec, hlen.trans_le (Bool.toNat_le e),
      by rw [State.respond_respOut, hresp, hflag]⟩
  · obtain ⟨⟨u, e⟩, hc⟩ := exists_consumeBit hinv (sliceBit x)
    have hpush := exec_pushBit_of_consumeBit hf hc
    exact ⟨_, (exec_pushSoft x s).trans hpush, by rw [← sliceBit_eq, hpush]⟩

/-! ## Search bits and payload bits -/

theorem consumeBit_of_search {s : State} (hf : s.fsm = .syncSearch) (he : s.cfg.effL ≠ 0) (b : Bool) :
    consumeBit b s = .ok (searchBit b s, false) := by
  rw [consumeBit, emptyCodeMove_of_not (by simp [he]), consumeIn_of_syncSearch hf]

theorem searchBit_of_match {s : State} {b : Bool} (h : matchSignal s.cfg (shiftIn s.dataReg b) = true) :
    searchBit b s = { s with fsm := .haveSync, hrLen := 0, dataReg := shiftIn s.dataReg b, nskip := s.nskip + 1 } :=
  if_pos h

theorem searchBit_of_no_match {s : State} {b : Bool} (h : matchSignal s.cfg (shiftIn s.dataReg b) = false) :
    searchBit b s = { s with dataReg := shiftIn s.dataReg b, nskip := s.nskip + 1 } :=
  if_neg (ne_true_of_eq_false h)

/-- Settles O37: `searchBit` with the comparison of `matchSignal_eq`, match by match. -/
theorem pushedBitWhileSearching : Obligations.PushedBitWhileSearching := by
  intro b s hf hfsm he data found
  have hfound : matchSignal s.cfg (shiftIn s.dataReg b) = found := matchSignal_eq _ _
  rw [exec_pushBit_of_consumeBit hf (consumeBit_of_search hfsm he b)]
  cases hm : found with
  | true =>
    rw [searchBit_of_match (hfound.trans hm)]
    rfl
  | false =>
    rw [searchBit_of_no_match (hfound.trans hm), ← hfsm]
    rfl

theorem payloadBit_of_zero {s : State} (h : s.payloadRemain = 0) : payloadBit s = .error .payloadUnderflow := if_pos h

theorem consumeBit_of_haveHeader {s : State} (hf : s.fsm = .haveHeader) (b : Bool) :
    consumeBit b s = (payloadBit s).map fun u => (u, false) := by
  rw [consumeBit, emptyCodeMove_of_not (by simp [hf]), consumeIn, hf]
  cases payloadBit s <;> rfl

/-- Settles O40: `payloadBit`, where `PAYLOAD_REMAIN - 1` is 0 exactly at 1. -/
theorem pushedBitWhileCountingPayload : Obligations.PushedBitWhileCountingPayload := by
  intro b s hf hfsm
  have hconsume := consumeBit_of_haveHeader hfsm b
  refine ⟨fun hne => ?_, fun hzero => ?_⟩
  · have hlast : s.payloadRemain - 1 = 0#32 ↔ s.payloadRemain = 1 := by bv_omega
    have hpay : payloadBit s = .ok _ := if_neg hne
    rw [hpay] at hconsume
    rw [exec_pushBit_of_consumeBit hf hconsume]
    simp only [hlast, hfsm]
    rfl
  · rw [payloadBit_of_zero hzero] at hconsume
    exact exec_pushBit_of_error hf hconsume

/-! ## A complete header -/

theorem exec_judgeHeader_of_ok {s u : State} {e : Bool} (h : judgeHeader s = .ok (u, e)) :
    exec .judgeHeader s = .next (u.returns (.bit e)) := by
  show execJudgeHeader s = _
  rw [execJudgeHeader, h]

theorem afterRead_of_le {s : State} {n : Nat} (h : n ≤ s.hrDefined) : s.afterRead n = s := if_pos h

/-- Where the layout's span is written, its validation run alone answers what `JudgeHeader` asks, and draws nothing (R112,
R130). -/
theorem exec_hdrOkOf {s : State} {e : Bool} (hspan : hdrSpan s.cfg ≤ s.hrDefined) (h : hdrOk s = .ok e) :
    exec (hdrOkOf s.cfg.variant) s = .next { s with ret := .bit e } := by
  cases hvar : s.cfg.variant <;> simp only [hdrSpan, hdrOk, hvar] at hspan h <;> simp only [hdrOkOf]
  case default =>
    cases h
    rw [exec_defaultHdrOk, afterRead_of_le hspan]
    rfl
  case counter =>
    cases h
    rw [exec_counterHdrOk, afterRead_of_le (by omega)]
    rfl
  case crc =>
    cases h
    rw [exec_crcHdrOk, afterRead_of_le hspan]
    rfl
  case variableBits =>
    show execVariableBitsHdrOk s = _
    simp only [execVariableBitsHdrOk, h, afterRead_of_le hspan]
    rfl
  case ofdm =>
    show execOfdmHdrOk s = _
    simp only [execOfdmHdrOk, h, afterRead_of_le hspan]
    rfl

/-- Likewise for the layout's extraction. -/
theorem exec_hdrPayloadOf {s : State} {len : Half} {r : Record} (hspan : hdrSpan s.cfg ≤ s.hrDefined)
    (hb : 0 < s.cfg.bps.toNat) (h : hdrPayload s = .ok (len, r)) :
    exec (hdrPayloadOf s.cfg.variant) s = .next { s with ret := .payload len r } := by
  have hunits := unitPayloadSpan_le_unitSpan hb
  cases hvar : s.cfg.variant <;> simp only [hdrSpan, hdrPayload, hvar] at hspan h <;> simp only [hdrPayloadOf]
  case default =>
    cases h
    rw [exec_defaultHdrPayload, afterRead_of_le (by omega)]
    rfl
  case counter =>
    cases h
    rw [exec_counterHdrPayload, afterRead_of_le hspan]
    rfl
  case crc =>
    cases h
    rw [exec_crcHdrPayload, afterRead_of_le (by omega)]
    rfl
  case variableBits =>
    show execVariableBitsHdrPayload s = _
    simp only [execVariableBitsHdrPayload, h, afterRead_of_le (hunits.trans hspan)]
    rfl
  case ofdm =>
    show execOfdmHdrPayload s = _
    simp only [execOfdmHdrPayload, h, afterRead_of_le (hunits.trans hspan)]
    rfl

/-- The state after a valid header of length `len` and record `r`: the record emitted with the bits skipped, and the payload
bits to count, if there are any (R172, R173). -/
def State.delivered (s : State) (len : Half) (r : Record) : State :=
  { s with
    recOut := s.recOut ++ [{ r with skip := s.nskip }]
    nskip := 0
    hrLen := 0
    fsm := if 8 * len.toNat / s.cfg.bps.toNat = 0 then .syncSearch else .haveHeader
    payloadRemain := if 8 * len.toNat / s.cfg.bps.toNat = 0 then s.payloadRemain
      else BitVec.ofNat 32 (8 * len.toNat / s.cfg.bps.toNat) }

/-- The payload count of a 16-bit length does not wrap (R173). -/
theorem payloadCount_eq_zero_iff (len : Half) (b : Nat) :
    BitVec.ofNat 32 (8 * len.toNat / b) = 0#32 ↔ 8 * len.toNat / b = 0 := by
  have hlt : 8 * len.toNat / b < 2 ^ 32 :=
    (Nat.div_le_self _ _).trans_lt ((Nat.mul_lt_mul_left (by decide)).mpr len.isLt |>.trans (by decide))
  rw [← BitVec.toNat_inj, BitVec.toNat_ofNat, Nat.mod_eq_of_lt hlt]
  rfl

theorem deliver_startPayload (s : State) (len : Half) (r : Record) :
    (s.deliver r).startPayload (BitVec.ofNat 32 (8 * len.toNat / s.cfg.bps.toNat)) = s.delivered len r := by
  simp only [State.startPayload, State.delivered, payloadCount_eq_zero_iff]
  split <;> rfl

/-- A complete header is judged by the selected layout's own instructions, each as it answers when run alone: dropped if it is
not valid, delivered if it is (R16, R130, R172, R175). -/
theorem judgeHeader_of_complete {s : State} (hp : s.params.Legal) (hv : s.cfg.valid s.params = true)
    (hcells : s.hrBits.length = s.params.hrCap) (hlen : s.hrLen.toNat = s.cfg.htgt) :
    (exec (hdrOkOf s.cfg.variant) s = .next { s with ret := .bit false } ∧
        judgeHeader s = .ok ({ s with fsm := .syncSearch, hrLen := 0 }, false))
      ∨ ∃ len r, exec (hdrOkOf s.cfg.variant) s = .next { s with ret := .bit true } ∧
        exec (hdrPayloadOf s.cfg.variant) s = .next { s with ret := .payload len r } ∧
        judgeHeader s = .ok (s.delivered len r, true) := by
  have hne := bps_ne_zero_of_valid hv
  have hspan : hdrSpan s.cfg ≤ s.hrDefined := by
    have hroom := (minUnitsAndShortestHeader.2 _ _ hv).2 hp
    exact (hdrSpan_le_htgt hv).trans (le_min hlen.ge (hroom.trans_eq hcells.symm))
  obtain ⟨⟨e, he⟩, ⟨len, r⟩, hpay⟩ := exists_hdrOk_hdrPayload hp hv
  cases e with
  | false =>
    refine .inl ⟨exec_hdrOkOf hspan he, ?_⟩
    rw [judgeHeader_of_invalid he, afterRead_of_le hspan]
    rfl
  | true =>
    refine .inr ⟨len, r, exec_hdrOkOf hspan he, exec_hdrPayloadOf hspan (bps_pos hne) hpay, ?_⟩
    rw [judgeHeader_of_valid he hpay (payloadCount_of_ne hne len), afterRead_of_le hspan, deliver_startPayload]

/-- Settles O42: `judgeHeader_of_complete`. -/
theorem judgeHeaderEmitsOrDrops : Obligations.JudgeHeaderEmitsOrDrops := by
  intro s hp hv hcells hlen
  obtain ⟨hok, hj⟩ | ⟨len, r, hok, hpay, hj⟩ := judgeHeader_of_complete hp hv hcells hlen
  · exact .inl ⟨hok, exec_judgeHeader_of_ok hj⟩
  · exact .inr ⟨len, r, hok, hpay, exec_judgeHeader_of_ok hj⟩

/-- Settles O39: the completed header is the one of `judgeHeader_of_complete`; `PAYLOAD_REMAIN` was 0 before. -/
theorem pushedBitThatCompletesAHeader : Obligations.PushedBitThatCompletesAHeader := by
  intro b s hinv hf hfsm hlast u
  have hlt : s.hrLen.toNat < s.cfg.htgt := by omega
  have hfull : u.hrLen.toNat = u.cfg.htgt := (hinv.hrLen_succ hlt).trans hlast
  have hinsert := hrInsert_of_lt (b := b) (hlt.trans_le hinv.htgt_le_cells)
  have hconsume : consumeBit b s = judgeHeader u :=
    (consumeBit_of_haveSync hfsm b).trans (headerBit_of_full hinsert hfull)
  have hcells : u.hrBits.length = u.params.hrCap := List.length_set.trans hinv.cells
  obtain ⟨hok, hj⟩ | ⟨len, r, hok, hpay, hj⟩ := judgeHeader_of_complete (s := u) hinv.params hinv.config hcells hfull
  · exact .inl ⟨hok, exec_pushBit_of_consumeBit hf (hconsume.trans hj)⟩
  · refine .inr ⟨len, r, hok, hpay, ?_⟩
    have hremain : (if 8 * len.toNat / s.cfg.bps.toNat = 0 then s.payloadRemain
        else BitVec.ofNat 32 (8 * len.toNat / s.cfg.bps.toNat)) = BitVec.ofNat 32 (8 * len.toNat / s.cfg.bps.toNat) := by
      have hzero : s.payloadRemain = 0 := hinv.notCounting (by simp [hfsm])
      split
      · rename_i h0
        exact hzero.trans (congrArg (BitVec.ofNat 32) h0).symm
      · rfl
    rw [exec_pushBit_of_consumeBit hf (hconsume.trans hj), ← hremain]
    rfl

/-! ## Bursts -/

/-- A push completes and keeps the invariant and `FAULT = 0` (R176, R182). -/
theorem exec_pushBit_inv {s : State} (hinv : s.Inv) (hf : s.fault = false) (b : Bool) :
    ∃ u, exec (.pushBit b) s = .next u ∧ u.Inv ∧ u.fault = false := by
  obtain ⟨⟨u, e⟩, hc⟩ := exists_consumeBit hinv b
  obtain ⟨rs, -, hu⟩ := consumeBit_frame hc
  exact ⟨_, exec_pushBit_of_consumeBit hf hc, (hinv.consumeBit hc).respond _ _, by rw [State.respond_fault, hu]; exact hf⟩

theorem pushAll_cons {s u : State} {b : Bool} (h : exec (.pushBit b) s = .next u) (bits : List Bool) :
    pushAll (b :: bits) s = pushAll bits u := by
  simp only [pushAll, List.map_cons, execAll, h]

theorem pushAll_singleton {s u : State} {b : Bool} (h : exec (.pushBit b) s = .next u) : pushAll [b] s = .next u :=
  pushAll_cons h []

/-- A burst after a burst goes on from where the first one ended (R179). -/
theorem pushAll_append {s u : State} {xs : List Bool} (h : pushAll xs s = .next u) (ys : List Bool) :
    pushAll (xs ++ ys) s = pushAll ys u := by
  induction xs generalizing s with
  | nil => cases h; rfl
  | cons x xs ih =>
    cases hx : exec (.pushBit x) s with
    | next v =>
      rw [pushAll_cons hx] at h
      rw [List.cons_append, pushAll_cons hx, ih h]
    | fault f => simp [pushAll, execAll, hx] at h
    | refused r => simp [pushAll, execAll, hx] at h

/-- Every burst completes and keeps the invariant (R179, R182). -/
theorem pushAll_inv {s : State} (hinv : s.Inv) (hf : s.fault = false) (bits : List Bool) :
    ∃ u, pushAll bits s = .next u ∧ u.Inv ∧ u.fault = false := by
  induction bits generalizing s with
  | nil => exact ⟨s, rfl, hinv, hf⟩
  | cons b bits ih =>
    obtain ⟨u, hu, huinv, huf⟩ := exec_pushBit_inv hinv hf b
    rw [pushAll_cons hu]
    exact ih huinv huf

/-- Settles O43: `pushAll_inv` and `pushAll_append`. -/
theorem burstsOfAStreamCompose : Obligations.BurstsOfAStreamCompose := by
  intro xs ys s hinv hf
  obtain ⟨u, hu, huinv, huf⟩ := pushAll_inv hinv hf xs
  exact ⟨u, huinv, huf, hu, pushAll_append hu ys⟩

end Sys2Proof.Machine
end

section
/-! SUPPORT. Round trips (R183): a burst searched for the access code, a burst collected into the header register, and for each
layout the header that `FORMAT` emits as one that is judged valid and read back. -/

namespace Sys2Proof

/-! ## Streams of bits -/

/-- The bytes of a number, most significant first, carry its bits, most significant first (R62, R63). -/
theorem bytesBe_bits (w v : Nat) : (bytesBe w v).flatMap msbFirst = msbBits (BitVec.ofNat (8 * w) v) := by
  induction w generalizing v with
  | zero => rfl
  | succ w ih =>
    have hsplit : BitVec.ofNat (8 * w + 8) v = BitVec.ofNat (8 * w) (v / 256) ++ BitVec.ofNat 8 v := by
      apply BitVec.eq_of_toNat_eq
      rw [BitVec.toNat_append, ← Nat.shiftLeft_add_eq_or_of_lt (BitVec.isLt _), Nat.shiftLeft_eq, BitVec.toNat_ofNat,
        BitVec.toNat_ofNat, BitVec.toNat_ofNat, Nat.pow_add, Nat.mul_comm, Nat.mod_mul]
      ring
    calc (bytesBe (w + 1) v).flatMap msbFirst = (bytesBe w (v / 256)).flatMap msbFirst ++ msbFirst (BitVec.ofNat 8 v) := by
          simp [bytesBe, bytesLe]
      _ = msbBits (BitVec.ofNat (8 * w) (v / 256) ++ BitVec.ofNat 8 v) := by
          rw [ih, msbFirst_eq_msbBits, ← msbBits_append]
      _ = msbBits (BitVec.ofNat (8 * (w + 1)) v) := by rw [← hsplit]; rfl

/-- Counted from the last one, the bits of a value are those of its least significant end. -/
theorem msbBits_reverse_getElem? {w i : Nat} (hi : i < w) (v : BitVec w) :
    (msbBits v).reverse[i]? = some (v.getLsbD i) := by
  rw [List.getElem?_reverse (by simpa using hi), msbBits_length, msbBits_getElem? (by omega)]
  congr 2
  omega

end Sys2Proof

namespace Sys2Proof.Machine

/-! ## The correlator over a stream -/

theorem shiftIn_getLsbD (data : Word) (b : Bool) {i : Nat} (hi : i < 64) :
    (shiftIn data b).getLsbD i = if i = 0 then b else data.getLsbD (i - 1) := by
  have hflag : (flagWord b).getLsbD i = (decide (i = 0) && b) := by
    cases b <;> simp [flagWord, BitVec.getLsbD_one]
  rw [shiftIn, BitVec.getLsbD_or, BitVec.getLsbD_shiftLeft, hflag]
  rcases Nat.eq_zero_or_pos i with rfl | hpos
  · simp
  · simp [hi, hpos.ne', show ¬ i < 1 by omega]

theorem shiftAll_concat (data : Word) (bits : List Bool) (b : Bool) :
    shiftAll data (bits ++ [b]) = shiftIn (shiftAll data bits) b := by
  simp [shiftAll]

/-- The correlator register holds the latest bits, the last one in bit 0 (R120). -/
theorem shiftAll_getLsbD (data : Word) {bits : List Bool} {i : Nat} {b : Bool} (hi : i < 64)
    (h : bits.reverse[i]? = some b) : (shiftAll data bits).getLsbD i = b := by
  induction bits using List.reverseRecOn generalizing i with
  | nil => simp at h
  | append_singleton bits x ih =>
    rw [shiftAll_concat, shiftIn_getLsbD _ _ hi]
    rw [List.reverse_append] at h
    cases i with
    | zero => simpa using h
    | succ i => exact ih (by omega) (by simpa using h)

/-- The correlator matches on the last bit of the access code, whatever came before it (R120, R171). -/
theorem matchSignal_of_code {c : CfgRegs} {w : Nat} (hw : 8 * w = c.effL) (hle : c.effL ≤ 64) (data : Word)
    (pre : List Bool) :
    matchSignal c (shiftAll data (pre ++ (bytesBe w c.acPattern.toNat).flatMap msbFirst)) = true := by
  have hsame : ∀ i < c.effL, (shiftAll data (pre ++ (bytesBe w c.acPattern.toNat).flatMap msbFirst)).getLsbD i
      = c.acPattern.getLsbD i := by
    intro i hi
    refine shiftAll_getLsbD data (by omega) ?_
    rw [bytesBe_bits, List.reverse_append, List.getElem?_append_left (by simp; omega),
      msbBits_reverse_getElem? (by omega), BitVec.getLsbD_ofNat, BitVec.testBit_toNat]
    simp [show i < 8 * w by omega]
  have hnone : ((List.range c.effL).countP fun i =>
      (shiftAll data (pre ++ (bytesBe w c.acPattern.toNat).flatMap msbFirst)).getLsbD i != c.acPattern.getLsbD i) = 0 :=
    List.countP_eq_zero.mpr fun i hi => by simp [hsame i (List.mem_range.mp hi)]
  rw [matchSignal_eq, hnone]
  exact decide_eq_true (Nat.zero_le _)

/-! ## Searching -/

theorem nskip_add_one (x : Word) (n : Nat) : x + 1 + BitVec.ofNat 64 n = x + BitVec.ofNat 64 (n + 1) := by
  rw [Nat.add_comm n, BitVec.ofNat_add, BitVec.add_assoc]
  rfl

/-- The state after bits that were searched without a match (R171). -/
def State.searched (s : State) (bits : List Bool) : State :=
  { s with
    dataReg := shiftAll s.dataReg bits
    nskip := s.nskip + BitVec.ofNat 64 bits.length
    respOut := s.respOut ++ List.replicate bits.length ⟨.ok, 0⟩ }

theorem State.searched_nil (s : State) : s.searched [] = s := by simp [State.searched, shiftAll]

theorem State.searched_append (s : State) (xs ys : List Bool) : (s.searched xs).searched ys = s.searched (xs ++ ys) := by
  simp [State.searched, shiftAll, BitVec.ofNat_add, BitVec.add_assoc]

theorem exec_pushBit_of_no_match {s : State} {b : Bool} (hf : s.fault = false) (hfsm : s.fsm = .syncSearch)
    (he : s.cfg.effL ≠ 0) (h : matchSignal s.cfg (shiftIn s.dataReg b) = false) :
    exec (.pushBit b) s = .next (s.searched [b]) := by
  rw [exec_pushBit_of_consumeBit hf (consumeBit_of_search hfsm he b), searchBit_of_no_match h]
  rfl

theorem exec_pushBit_of_match {s : State} {b : Bool} (hf : s.fault = false) (hfsm : s.fsm = .syncSearch)
    (he : s.cfg.effL ≠ 0) (h : matchSignal s.cfg (shiftIn s.dataReg b) = true) :
    exec (.pushBit b) s = .next { s.searched [b] with fsm := .haveSync, hrLen := 0 } := by
  rw [exec_pushBit_of_consumeBit hf (consumeBit_of_search hfsm he b), searchBit_of_match h]
  rfl

/-- Before the first match a burst is only searched (R171). -/
theorem pushAll_search {s : State} {stream : List Bool} {n : Nat} (hf : s.fault = false) (hfsm : s.fsm = .syncSearch)
    (he : s.cfg.effL ≠ 0) (hn : n ≤ stream.length) (hno : NoEarlyMatch s stream n) {m : Nat} (hm : m < n) :
    pushAll (stream.take m) s = .next (s.searched (stream.take m)) := by
  induction m with
  | zero => rw [List.take_zero, State.searched_nil]; rfl
  | succ m ih =>
    have hmiss := hno (m + 1) (Nat.succ_pos m) hm
    rw [List.take_succ_eq_append_getElem (by omega), shiftAll_concat] at hmiss
    rw [List.take_succ_eq_append_getElem (by omega), pushAll_append (ih (by omega)), ← State.searched_append]
    exact pushAll_singleton (exec_pushBit_of_no_match (s := s.searched _) hf hfsm he hmiss)

/-- The first match starts a header (R171). -/
theorem pushAll_search_match {s : State} {stream : List Bool} {n : Nat} (hf : s.fault = false)
    (hfsm : s.fsm = .syncSearch) (he : s.cfg.effL ≠ 0) (hpos : 0 < n) (hn : n ≤ stream.length)
    (hno : NoEarlyMatch s stream n) (hmatch : matchSignal s.cfg (shiftAll s.dataReg (stream.take n)) = true) :
    pushAll (stream.take n) s = .next { s.searched (stream.take n) with fsm := .haveSync, hrLen := 0 } := by
  obtain ⟨m, rfl⟩ := Nat.exists_eq_succ_of_ne_zero hpos.ne'
  have hmiss := pushAll_search hf hfsm he hn hno (Nat.lt_succ_self m)
  rw [List.take_succ_eq_append_getElem hn, shiftAll_concat] at hmatch
  rw [List.take_succ_eq_append_getElem hn, pushAll_append hmiss, ← State.searched_append]
  exact pushAll_singleton (exec_pushBit_of_match (s := s.searched _) hf hfsm he hmatch)

/-! ## Collecting -/

/-- A bit stored at `HR.len` is the next bit held (R38, R110). -/
theorem State.HrHolds.store {s u : State} {held : List Bool} {b : Bool} (h : s.HrHolds held)
    (hroom : held.length < s.hrBits.length) (hbits : u.hrBits = s.hrBits.set s.hrLen.toNat b)
    (hlen : u.hrLen.toNat = s.hrLen.toNat + 1) : u.HrHolds (held ++ [b]) := by
  obtain ⟨hcount, htake⟩ := h
  refine ⟨by rw [hlen, hcount, List.length_append]; rfl, ?_⟩
  rw [hbits, hcount, List.length_append, List.length_singleton,
    List.take_succ_eq_append_getElem (by rwa [List.length_set]), List.getElem_set_self, List.take_set_of_le le_rfl, htake]

/-- A burst that does not complete the header is held after the bits held before (R110, R170). -/
theorem pushAll_collect {s : State} {held bits : List Bool} (hinv : s.Inv) (hf : s.fault = false)
    (hfsm : s.fsm = .haveSync) (hheld : s.HrHolds held) (hshort : held.length + bits.length < s.cfg.htgt) :
    ∃ v, pushAll bits s = .next v ∧ v.HrHolds (held ++ bits) ∧
      v = { s with hrBits := v.hrBits, hrLen := v.hrLen, nskip := s.nskip + BitVec.ofNat 64 bits.length,
                   respOut := v.respOut } := by
  induction bits generalizing s held with
  | nil => exact ⟨s, rfl, by rwa [List.append_nil], by simp⟩
  | cons b bits ih =>
    rw [List.length_cons] at hshort
    have hlen := hheld.1
    have hlt := hinv.collecting hfsm
    have hroom := hlt.trans_le hinv.htgt_le_cells
    have hpush := pushedBitWhileCollecting.1 b s hf hfsm (by omega) hroom
    obtain ⟨u, hu, huinv, huf⟩ := exec_pushBit_inv hinv hf b
    cases hpush.symm.trans hu
    obtain ⟨v, hv, hvheld, hframe⟩ := ih huinv huf hfsm
      (hheld.store (b := b) (by rwa [← hlen]) rfl (hinv.hrLen_succ hlt)) (by simp; omega)
    refine ⟨v, (pushAll_cons hpush bits).trans hv, by simpa using hvheld, hframe.trans ?_⟩
    simp only [nskip_add_one, List.length_cons]

/-- A complete header that every register under this configuration judges valid, and from which it reads this count of payload
bits (R130, R172). -/
def ReadsAs (p : Params) (c : CfgRegs) (bits : List Bool) (payload : BitVec 32) : Prop :=
  bits.length = c.htgt ∧ ∀ w : State, w.params = p → w.cfg = c → w.HrHolds bits → ∃ len r,
    exec (hdrOkOf c.variant) w = .next { w with ret := .bit true } ∧
    exec (hdrPayloadOf c.variant) w = .next { w with ret := .payload len r } ∧ r.payloadBits = payload

/-- The state with a header bit stored and counted (R110, R170). -/
def State.storeBit (s : State) (b : Bool) : State :=
  { s with hrBits := s.hrBits.set s.hrLen.toNat b, hrLen := s.hrLen + 1, nskip := s.nskip + 1 }

/-- The bit that completes a valid header emits the header's record (R172, R177). -/
theorem exec_pushBit_of_valid_header {s : State} {b : Bool} {len : Half} {r : Record} (hinv : s.Inv)
    (hf : s.fault = false) (hfsm : s.fsm = .haveSync) (hlast : s.hrLen.toNat + 1 = s.cfg.htgt)
    (hok : exec (hdrOkOf s.cfg.variant) (s.storeBit b) = .next { s.storeBit b with ret := .bit true })
    (hpay : exec (hdrPayloadOf s.cfg.variant) (s.storeBit b) = .next { s.storeBit b with ret := .payload len r }) :
    ∃ v, exec (.pushBit b) s = .next v ∧ v.recOut = s.recOut ++ [{ r with skip := s.nskip + 1 }]
      ∧ v.respOut = s.respOut ++ [⟨.ok, 1⟩] := by
  obtain ⟨hbad, -⟩ | ⟨len', r', -, hpay', hpush⟩ := pushedBitThatCompletesAHeader b s hinv hf hfsm hlast
  · have hret := congrArg State.ret (Host.Outcome.next.inj (hok.symm.trans hbad))
    cases hret
  · have hret := congrArg State.ret (Host.Outcome.next.inj (hpay.symm.trans hpay'))
    cases hret
    exact ⟨_, hpush, rfl, rfl⟩

/-- A header that reads as valid, pushed into an empty register, emits one record on its last bit (R172, R177, R183). -/
theorem pushAll_of_readsAs {s : State} {bits : List Bool} {payload : BitVec 32} (hinv : s.Inv) (hf : s.fault = false)
    (hfsm : s.fsm = .haveSync) (hempty : s.hrLen = 0) (h : ReadsAs s.params s.cfg bits payload) :
    ∃ v r, pushAll bits s = .next v ∧ v.recOut = s.recOut ++ [r] ∧ r.payloadBits = payload
      ∧ r.skip = s.nskip + BitVec.ofNat 64 bits.length ∧ v.respOut.getLast? = some ⟨.ok, 1⟩ := by
  obtain ⟨hlen, hread⟩ := h
  obtain rfl | ⟨bits, b, rfl⟩ := List.eq_nil_or_concat' bits
  · exact absurd hlen (htgt_pos_of_valid hinv.config).ne
  rw [List.length_append, List.length_singleton] at hlen ⊢
  have hnil : s.HrHolds [] := ⟨by rw [hempty]; rfl, rfl⟩
  obtain ⟨v, hv, hheld, hframe⟩ := pushAll_collect hinv hf hfsm hnil (bits := bits) (by simp; omega)
  obtain ⟨v', hv', hvinv, hvf⟩ := pushAll_inv hinv hf bits
  cases hv.symm.trans hv'
  rw [List.nil_append] at hheld
  have hparams : v.params = s.params := by rw [hframe]
  have hcfg : v.cfg = s.cfg := by rw [hframe]
  have hvfsm : v.fsm = .haveSync := by rw [hframe]; exact hfsm
  have hrec : v.recOut = s.recOut := by rw [hframe]
  have hskip : v.nskip = s.nskip + BitVec.ofNat 64 bits.length := by rw [hframe]
  have hlast : v.hrLen.toNat + 1 = v.cfg.htgt := by rw [hheld.1, hcfg, hlen]
  have hlt : v.hrLen.toNat < v.cfg.htgt := by omega
  have hroom : bits.length < v.hrBits.length := by rw [← hheld.1]; exact hlt.trans_le hvinv.htgt_le_cells
  obtain ⟨len, r, hok, hpay, hbits⟩ :=
    hread (v.storeBit b) hparams hcfg (hheld.store hroom rfl (hvinv.hrLen_succ hlt))
  rw [← hcfg] at hok hpay
  obtain ⟨u, hu, hurec, huresp⟩ := exec_pushBit_of_valid_header hvinv hvf hvfsm hlast hok hpay
  refine ⟨u, { r with skip := v.nskip + 1 }, (pushAll_append hv [b]).trans (pushAll_singleton hu), by rw [hurec, hrec],
    hbits, ?_, by simp [huresp]⟩
  show v.nskip + 1 = _
  rw [hskip, BitVec.ofNat_add, BitVec.add_assoc]
  rfl

/-- A stream whose first match is at the end of `lead`, and whose rest reads as a valid header, emits one record on its last bit
(R171, R172, R183). -/
theorem pushAll_search_readsAs {s : State} {lead bits : List Bool} {payload : BitVec 32} (hinv : s.Inv)
    (hf : s.fault = false) (hfsm : s.fsm = .syncSearch) (he : s.cfg.effL ≠ 0) (hpos : 0 < lead.length)
    (hno : NoEarlyMatch s (lead ++ bits) lead.length) (hmatch : matchSignal s.cfg (shiftAll s.dataReg lead) = true)
    (hread : ReadsAs s.params s.cfg bits payload) :
    ∃ v r, pushAll (lead ++ bits) s = .next v ∧ v.recOut = s.recOut ++ [r] ∧ r.payloadBits = payload
      ∧ r.skip = s.nskip + BitVec.ofNat 64 (lead.length + bits.length) ∧ v.respOut.getLast? = some ⟨.ok, 1⟩ := by
  have htake : (lead ++ bits).take lead.length = lead := List.take_left
  have hsynced := pushAll_search_match hf hfsm he hpos (by simp) hno (by rwa [htake])
  rw [htake] at hsynced
  obtain ⟨u, hu, huinv, huf⟩ := pushAll_inv hinv hf lead
  cases hsynced.symm.trans hu
  obtain ⟨v, r, hv, hrec, hpayload, hskip, hresp⟩ := pushAll_of_readsAs huinv huf rfl rfl hread
  refine ⟨v, r, (pushAll_append hsynced bits).trans hv, hrec, hpayload, hskip.trans ?_, hresp⟩
  rw [BitVec.ofNat_add, ← BitVec.add_assoc]
  rfl

end Sys2Proof.Machine
end

section
/-! SUPPORT. Round trips (R183), layout by layout: the stream of the header that `FORMAT` emits is the access code followed by
bits that are judged valid and read back. -/

namespace Sys2Proof.Machine

/-! ## Headers that are read back -/

/-- The payload bits of a 12-bit length (R45). -/
theorem plainRecord_payloadBits (v : Variant) (l : BitVec 12) (bps counter : Half) (n : BitVec 32) :
    (plainRecord v (l.setWidth 16) bps counter n).payloadBits = BitVec.ofNat 32 (8 * l.toNat) :=
  congrArg (fun x => BitVec.ofNat 32 (8 * x)) (BitVec.toNat_setWidth_of_le (by decide))

theorem readsAs_default {p : Params} {c : CfgRegs} (hvar : c.variant = .default) (x : Half) :
    ReadsAs p c ((bigEndian16 x ++ bigEndian16 x).flatMap msbFirst) (BitVec.ofNat 32 (8 * x.toNat)) := by
  refine ⟨by simp [bigEndian16_bits, CfgRegs.htgt, hvar], fun w _ _ hheld => ?_⟩
  obtain ⟨hok, hpay⟩ := (lengthPairHeadersAreJudgedAndRead x x 0 0 w).1 hheld
  rw [decide_eq_true rfl] at hok
  rw [hvar]
  exact ⟨x, _, hok, hpay, rfl⟩

theorem readsAs_counter {p : Params} {c : CfgRegs} (hvar : c.variant = .counter) (x q n : Half) :
    ReadsAs p c ((bigEndian16 x ++ bigEndian16 x ++ bigEndian16 q ++ bigEndian16 n).flatMap msbFirst)
      (BitVec.ofNat 32 (8 * x.toNat)) := by
  refine ⟨by simp [bigEndian16_bits, CfgRegs.htgt, hvar], fun w _ _ hheld => ?_⟩
  obtain ⟨hok, hpay⟩ := (lengthPairHeadersAreJudgedAndRead x x q n w).2 hheld
  rw [decide_eq_true rfl] at hok
  rw [hvar]
  exact ⟨x, _, hok, hpay, rfl⟩

theorem readsAs_crc {p : Params} {c : CfgRegs} (hvar : c.variant = .crc) (l n : BitVec 12) :
    ReadsAs p c (msbBits (crcHeaderWord l n)) (BitVec.ofNat 32 (8 * l.toNat)) := by
  refine ⟨by simp [CfgRegs.htgt, hvar], fun w _ _ hheld => ?_⟩
  obtain ⟨hok, hpay⟩ := crcHeadersAreJudgedAndRead l n (crcOf l n) w hheld
  rw [decide_eq_true rfl] at hok
  rw [hvar]
  exact ⟨_, _, hok, hpay, plainRecord_payloadBits _ l _ _ _⟩

/-- The bits of a units layout on the wire: under the scramble sequence in OFDM only (R154). -/
def maskedBits (p : Params) (c : CfgRegs) (bits : List Bool) : List Bool :=
  if c.variant = .ofdm then bits.mapIdx fun j x => x ^^ (p.scrambleSeq[j]?).getD false else bits

theorem readsAs_units {p : Params} {c : CfgRegs} (hp : p.Legal) (hv : c.valid p = true)
    (hu : c.variant.usesUnits = true) {l n : BitVec 12} {bits : List Bool} (hlen : bits.length = c.htgt)
    (hbits : ∀ j < c.htgt, bits[j]? = some (unitHeaderBit c.bps.toNat l n (crcOf l n) j)) :
    ReadsAs p c (maskedBits p c bits) (BitVec.ofNat 32 (8 * l.toNat)) := by
  refine ⟨by unfold maskedBits; split <;> simp [hlen], fun w hparams hcfg hheld => ?_⟩
  subst hparams hcfg
  obtain ⟨hplain, hmixed⟩ :=
    unitHeadersAreJudgedAndRead l n (crcOf l n) bits w hp hv hu hlen fun j hj _ => hbits j hj
  rw [decide_eq_true rfl] at hplain hmixed
  cases hvar : w.cfg.variant <;> rw [hvar] at hu
  case default | counter | crc => cases hu
  case variableBits =>
    rw [maskedBits, if_neg (by rw [hvar]; decide)] at hheld
    obtain ⟨hok, hpay⟩ := hplain hheld
    exact ⟨_, _, hok, hpay, plainRecord_payloadBits _ l _ _ _⟩
  case ofdm =>
    rw [maskedBits, if_pos hvar] at hheld
    obtain ⟨hok, hpay⟩ := hmixed hheld
    obtain ⟨m, -, hpay⟩ := hpay hvar
    exact ⟨_, _, hok, hpay, plainRecord_payloadBits _ l _ _ _⟩

/-! ## The streams that `FORMAT` emits -/

theorem wireBits_of_bytes {c : CfgRegs} (h : c.variant.usesUnits = false) (bytes : List Byte) :
    wireBits c bytes = bytes.flatMap msbFirst := by
  simp [wireBits, h]

theorem wireBits_of_units {c : CfgRegs} (h : c.variant.usesUnits = true) (units : List Byte) :
    wireBits c units = units.flatMap (unitBits c.bps.toNat) := by
  simp [wireBits, h]

/-- The bytes that a `FORMAT` emitted are the ones its whole next state names. -/
theorem emitted_eq {s u v : State} {len : Word} {h bytes : List Byte} (hexec : exec (.format len) s = .next u)
    (hout : u.hdrOut = s.hdrOut ++ h) (hknown : exec (.format len) s = .next v) (hv : v.hdrOut = s.hdrOut ++ bytes) :
    h = bytes := by
  cases hexec.symm.trans hknown
  exact List.append_cancel_left (hout.symm.trans hv)

/-- A Default or Counter header is the access code, then a target that reads back as the length (R140, R143, R183). -/
theorem wireBits_coded {s u : State} {len : Word} {h : List Byte} (hinv : s.Inv) (hf : s.fault = false)
    (hcode : s.cfg.variant.hasCode = true) (hmod : s.cfg.acLen.toNat % 8 = 0) (hlen : len.toNat ≤ 65535)
    (hexec : exec (.format len) s = .next u) (hout : u.hdrOut = s.hdrOut ++ h) :
    ∃ bits, wireBits s.cfg h = (bytesBe (s.cfg.acLen.toNat / 8) s.cfg.acPattern.toNat).flatMap msbFirst ++ bits ∧
      ReadsAs s.params s.cfg bits (BitVec.ofNat 32 (8 * len.toNat)) := by
  have hle : s.cfg.acLen.toNat ≤ 64 := by
    rw [← effL_of_hasCode hcode]
    exact effL_le_of_valid hinv.config
  obtain ⟨-, -, hdefault, hcounter⟩ := codedHeadersOnTheWire len s hcode hle hmod
  have hx : (BitVec.ofNat 16 len.toNat).toNat = len.toNat := by
    rw [BitVec.toNat_ofNat]
    omega
  cases hvar : s.cfg.variant <;> rw [hvar] at hcode
  case crc | variableBits | ofdm => cases hcode
  case default =>
    have hread := readsAs_default (p := s.params) hvar (BitVec.ofNat 16 len.toNat)
    rw [hx] at hread
    refine ⟨_, ?_, hread⟩
    rw [emitted_eq hexec hout (hdefault hf hlen hvar) rfl, wireBits_of_bytes (by rw [hvar]; rfl), List.flatMap_append]
  case counter =>
    have hread := readsAs_counter (p := s.params) hvar (BitVec.ofNat 16 len.toNat) (BitVec.ofNat 16 s.cfg.bps.toNat)
      s.txCounter
    rw [hx] at hread
    refine ⟨_, ?_, hread⟩
    rw [emitted_eq hexec hout (hcounter hf hlen hvar) rfl, wireBits_of_bytes (by rw [hvar]; rfl)]
    simp only [List.flatMap_append, List.append_assoc]

/-- A CRC header reads back as the length modulo `2^12` (R146, R183). -/
theorem wireBits_crc {s u : State} {len : Word} {h : List Byte} (hf : s.fault = false) (hvar : s.cfg.variant = .crc)
    (hexec : exec (.format len) s = .next u) (hout : u.hdrOut = s.hdrOut ++ h) :
    ReadsAs s.params s.cfg (wireBits s.cfg h) (BitVec.ofNat 32 (8 * (len.toNat % 4096))) := by
  have hread := readsAs_crc (p := s.params) hvar (field12 len) (field12 s.txCounter)
  rw [field12_toNat] at hread
  have hword := crcHeaderWord_toNat (field12 len) (field12 s.txCounter)
  rw [field12_toNat, field12_toNat] at hword
  have hknown := (crcHeaderOnTheWire len s).2 hf hvar
  rw [ofNat_mod_eq_field12, ofNat_mod_eq_field12, ← hword, ← bytesBe_four] at hknown
  rw [emitted_eq hexec hout hknown rfl, wireBits_of_bytes (by rw [hvar]; rfl), bytesBe_bits]
  rwa [ofNat_toNat_self]

theorem flatMap_unitBits_length (b : Nat) (units : List Byte) :
    (units.flatMap (unitBits b)).length = units.length * b := by
  simp [List.length_flatMap, unitBits]

/-- The bits of units that hold a stream are that stream (R64, R149). -/
theorem flatMap_unitBits_getElem? {b : Nat} (hb8 : b ≤ 8) {units : List Byte} {stream : Nat → Bool}
    (h : ∀ k x, units[k]? = some x → HoldsUnit b stream k x) {j : Nat} (hj : j < units.length * b) :
    (units.flatMap (unitBits b))[j]? = some (stream j) := by
  induction units generalizing stream j with
  | nil => simp at hj
  | cons x xs ih =>
    have hlen : (unitBits b x).length = b := by simp [unitBits]
    rw [List.flatMap_cons]
    rcases Nat.lt_or_ge j b with hjb | hjb
    · have hbit := h 0 x rfl j (by omega)
      rw [List.getElem?_append_left (by rwa [hlen])]
      simp [unitBits, hjb, hbit]
    · obtain ⟨i, rfl⟩ := Nat.exists_eq_add_of_le hjb
      have hrest : ∀ k y, xs[k]? = some y → HoldsUnit b (fun i => stream (b + i)) k y := fun k y hy =>
        (h (k + 1) y hy).congr fun q _ => congrArg stream (by ring)
      rw [List.length_cons, Nat.succ_mul] at hj
      rw [List.getElem?_append_right (by rw [hlen]; exact hjb), hlen, Nat.add_sub_cancel_left]
      exact ih hrest (by omega)

/-- The units of a VariableBits header hold its header stream (R149, R150). -/
theorem plainUnits_holds {s : State} {len : Word} {k : Nat} {x : Byte} (hv : s.cfg.valid s.params = true)
    (hu : s.cfg.variant.usesUnits = true) (hx : (plainUnits s len)[k]? = some x) :
    HoldsUnit s.cfg.bps.toNat (unitHeaderBit s.cfg.bps.toNat (field12 len) (field12 s.txCounter)
      (crcOf (field12 len) (field12 s.txCounter))) k x := by
  obtain ⟨hk, -⟩ := List.getElem?_eq_some_iff.mp hx
  rw [plainUnits_length hv hu] at hk
  obtain ⟨y, hy, hholds⟩ := headerUnits_holds (bps_pos (bps_ne_zero_of_valid hv)) hk (field12 len) (field12 s.txCounter)
  cases hx.symm.trans hy
  exact hholds

/-- The units of an OFDM header hold the header stream under the scramble sequence (R154). -/
theorem mixedUnits_holds {s : State} {len : Word} {k : Nat} {y : Byte} (hv : s.cfg.valid s.params = true)
    (hu : s.cfg.variant.usesUnits = true) (hy : (mixedUnits s len)[k]? = some y) :
    HoldsUnit s.cfg.bps.toNat (fun j => unitHeaderBit s.cfg.bps.toNat (field12 len) (field12 s.txCounter)
      (crcOf (field12 len) (field12 s.txCounter)) j ^^ seqBit s.params j) k y := by
  rw [mixedUnits, List.getElem?_mapIdx] at hy
  obtain ⟨x, hx, rfl⟩ := Option.map_eq_some_iff.mp hy
  exact (plainUnits_holds hv hu hx).xor (scrambleUnit_holds s.params s.cfg.bps.toNat k)

/-- A VariableBits or OFDM header reads back as the length modulo `2^12` (R150, R154, R183). -/
theorem wireBits_unitHeader {s u : State} {len : Word} {h : List Byte} (hinv : s.Inv) (hf : s.fault = false)
    (hu : s.cfg.variant.usesUnits = true) (hexec : exec (.format len) s = .next u) (hout : u.hdrOut = s.hdrOut ++ h) :
    ReadsAs s.params s.cfg (wireBits s.cfg h) (BitVec.ofNat 32 (8 * (len.toNat % 4096))) := by
  have hv := hinv.config
  obtain ⟨-, -, ⟨-, hb8⟩, -⟩ := CfgRegs.valid_iff.mp hv
  have hn : (plainUnits s len).length * s.cfg.bps.toNat = s.cfg.htgt := by
    rw [plainUnits_length hv hu, (unitSpan_le_of_valid hv hu).1]
  have hplain : ∀ j < s.cfg.htgt, ((plainUnits s len).flatMap (unitBits s.cfg.bps.toNat))[j]? = some _ := fun j hj =>
    flatMap_unitBits_getElem? hb8 (fun k x => plainUnits_holds hv hu) (hj.trans_eq hn.symm)
  have hmixed : ∀ j < s.cfg.htgt, ((mixedUnits s len).flatMap (unitBits s.cfg.bps.toNat))[j]? = some _ := fun j hj =>
    flatMap_unitBits_getElem? hb8 (fun k y => mixedUnits_holds hv hu) (hj.trans_eq (by rw [mixedUnits_length, hn]))
  have hmasked : (mixedUnits s len).flatMap (unitBits s.cfg.bps.toNat) =
      ((plainUnits s len).flatMap (unitBits s.cfg.bps.toNat)).mapIdx
        fun j x => x ^^ (s.params.scrambleSeq[j]?).getD false := by
    apply List.ext_getElem?
    intro j
    rcases Nat.lt_or_ge j s.cfg.htgt with hj | hj
    · rw [List.getElem?_mapIdx, hplain j hj, hmixed j hj]
      rfl
    · rw [List.getElem?_eq_none (by rwa [flatMap_unitBits_length, mixedUnits_length, hn]),
        List.getElem?_eq_none (by rwa [List.length_mapIdx, flatMap_unitBits_length, hn])]
  have hwire : wireBits s.cfg h = maskedBits s.params s.cfg ((plainUnits s len).flatMap (unitBits s.cfg.bps.toNat)) := by
    rw [emitted_eq hexec hout (exec_format_of_usesUnits hinv.params hv hu hf len) rfl, wireBits_of_units hu, maskedBits,
      ← hmasked]
    split <;> rfl
  have hread := readsAs_units hinv.params hv hu ((flatMap_unitBits_length _ _).trans hn) hplain
  rwa [field12_toNat, ← hwire] at hread

/-- With an empty access code the whole header reads back as the length that the layout sends (R183). -/
theorem wireBits_uncoded {s u : State} {len : Word} {h : List Byte} (hinv : s.Inv) (hf : s.fault = false)
    (heff : s.cfg.effL = 0) (hlen : s.cfg.variant.hasCode = true → len.toNat ≤ 65535)
    (hexec : exec (.format len) s = .next u) (hout : u.hdrOut = s.hdrOut ++ h) :
    ReadsAs s.params s.cfg (wireBits s.cfg h) (BitVec.ofNat 32 (8 * sentLen s.cfg len)) := by
  cases hcode : s.cfg.variant.hasCode with
  | true =>
    have hac : s.cfg.acLen.toNat = 0 := (effL_of_hasCode hcode).symm.trans heff
    obtain ⟨bits, hwire, hread⟩ := wireBits_coded hinv hf hcode (by rw [hac]) (hlen hcode) hexec hout
    have hnone : (bytesBe (s.cfg.acLen.toNat / 8) s.cfg.acPattern.toNat).flatMap msbFirst = [] := by rw [hac]; rfl
    rw [hnone, List.nil_append] at hwire
    rwa [hwire, sentLen, if_pos hcode]
  | false =>
    rw [sentLen, if_neg (by simp [hcode])]
    cases hvar : s.cfg.variant <;> rw [hvar] at hcode
    case default | counter => cases hcode
    case crc => exact wireBits_crc hf hvar hexec hout
    case variableBits | ofdm => exact wireBits_unitHeader hinv hf (by rw [hvar]; rfl) hexec hout

/-! ## The obligations -/

/-- Settles O57: the stream is searched up to the last bit of its access code (`pushAll_search_match`), and the rest is a header
that reads back as the length (`wireBits_coded`, `pushAll_of_readsAs`). -/
theorem codedHeaderRoundTrip : Obligations.CodedHeaderRoundTrip := by
  intro L s t u h pre hsinv hsf hcode hmod heff hL hexec hout huinv huf hparams hcfg hfsm hskip hno
  obtain ⟨bits, hwire, hread⟩ := wireBits_coded hsinv hsf hcode hmod hL hexec hout
  have hac := effL_of_hasCode hcode
  have hbytes : 8 * (s.cfg.acLen.toNat / 8) = s.cfg.effL := by omega
  have hlead : (pre ++ (bytesBe (s.cfg.acLen.toNat / 8) s.cfg.acPattern.toNat).flatMap msbFirst).length
      = pre.length + s.cfg.effL := by
    rw [bytesBe_bits, List.length_append, msbBits_length, hbytes]
  have hmatch : matchSignal u.cfg (shiftAll u.dataReg
      (pre ++ (bytesBe (s.cfg.acLen.toNat / 8) s.cfg.acPattern.toNat).flatMap msbFirst)) = true := by
    rw [hcfg]
    exact matchSignal_of_code hbytes (effL_le_of_valid hsinv.config) u.dataReg pre
  have hskipped : pre.length + s.cfg.headerNbits = pre.length + s.cfg.effL + bits.length := by
    rw [hread.1, CfgRegs.headerNbits, Nat.add_assoc]
  rw [hwire, ← List.append_assoc, ← hlead] at hno
  rw [hwire, ← List.append_assoc, hskipped, ← hlead]
  rw [← hcfg] at heff hread
  rw [← hparams] at hread
  obtain ⟨v, r, hv, hrec, hpayload, hrskip, hresp⟩ :=
    pushAll_search_readsAs huinv huf hfsm heff (by rw [hlead, ← hcfg]; omega) hno hmatch hread
  exact ⟨v, r, hv, hrec, hpayload, by rw [hrskip, hskip]; exact zero_add _, hresp⟩

/-- With an empty code the first bit of a search is pushed as into an empty header (R125). -/
theorem exec_pushBit_of_emptyCode {s : State} (hf : s.fault = false) (hfsm : s.fsm = .syncSearch)
    (he : s.cfg.effL = 0) (b : Bool) : exec (.pushBit b) s = exec (.pushBit b) s.sync := by
  have hconsume : consumeBit b s = consumeBit b s.sync :=
    (consumeBit_of_emptyCode hfsm he b).trans (consumeBit_of_haveSync s.sync_fsm b).symm
  show gate (pushStream b) s = gate (pushStream b) s.sync
  rw [gate_open hf, gate_open (s := s.sync) hf, pushStream, pushStream, hconsume]

theorem pushAll_of_emptyCode {s : State} {bits : List Bool} (hf : s.fault = false) (hfsm : s.fsm = .syncSearch)
    (he : s.cfg.effL = 0) (hne : bits ≠ []) : pushAll bits s = pushAll bits s.sync := by
  obtain ⟨b, bits, rfl⟩ := List.exists_cons_of_ne_nil hne
  simp only [pushAll, List.map_cons, execAll, exec_pushBit_of_emptyCode hf hfsm he]

/-- Settles O58: the whole stream is a header that reads back as the length sent (`wireBits_uncoded`, `pushAll_of_readsAs`). -/
theorem uncodedHeaderRoundTrip : Obligations.UncodedHeaderRoundTrip := by
  intro L s t u h hsinv hsf heff hL hexec hout huinv huf hparams hcfg hfsm hskip
  have hread := wireBits_uncoded hsinv hsf heff hL hexec hout
  have hlen : (wireBits s.cfg h).length = s.cfg.headerNbits := by
    rw [hread.1, CfgRegs.headerNbits, heff, Nat.zero_add]
  have hne : wireBits s.cfg h ≠ [] := List.ne_nil_of_length_pos (hread.1 ▸ htgt_pos_of_valid hsinv.config)
  rw [pushAll_of_emptyCode huf hfsm (by rwa [hcfg]) hne]
  obtain ⟨w, r, hw, hrec, hpayload, hrskip, hresp⟩ :=
    pushAll_of_readsAs (huinv.sync hfsm) huf rfl rfl (by rw [State.sync_params, State.sync_cfg, hparams, hcfg]; exact hread)
  exact ⟨w, r, hw, hrec, hpayload, by rw [hrskip, State.sync_nskip, hskip, hlen]; exact zero_add _, hresp⟩

end Sys2Proof.Machine
end

section
/-! SUPPORT. The control commands (spec/45_control.md): the clauses of a valid configuration in the words of the rules, what
changing one register asks of it, and each configuration command as its checks with its two next states. -/

namespace Sys2Proof

/-! ## Layout numbers -/

/-- A number names the layout that has it as its code (R21). -/
theorem Variant.ofNumber_eq_some_iff {v : Byte} {w : Variant} :
    Variant.ofNumber v = some w ↔ w.code.toNat = v.toNat := by
  constructor
  · intro h
    unfold Variant.ofNumber at h
    split_ifs at h with h0 h1 h2 h3 h4 <;> cases h <;> subst v <;> rfl
  · intro h
    have hv : v = w.code.setWidth 8 := BitVec.eq_of_toNat_eq (by cases w <;> exact h.symm)
    rw [hv]
    cases w <;> rfl

theorem Variant.usesUnits_iff_code (w : Variant) : w.usesUnits = true ↔ 3 ≤ w.code.toNat := by
  cases w <;> decide

theorem Variant.eq_ofdm_iff_code (w : Variant) : w = .ofdm ↔ w.code.toNat = 4 := by
  cases w <;> decide

theorem Variant.code_le (w : Variant) : w.code.toNat ≤ 4 := by
  cases w <;> decide

/-! ## Values below a power of two -/

/-- No bit at `n` or above is a value below `2^n` (R10, R23). -/
theorem and_not_mask_eq_zero_iff (p : Word) (n : Nat) : p &&& ~~~(mask n) = 0 ↔ p.toNat < 2 ^ n := by
  have hbit (i : Nat) : (p &&& ~~~(mask n)).getLsbD i = (p.getLsbD i && decide (n ≤ i)) := by
    rw [BitVec.getLsbD_and, BitVec.getLsbD_not, mask_getLsbD]
    by_cases hi : i < 64
    · simp [hi, ← decide_not]
    · simp [BitVec.getLsbD_of_ge p i (Nat.not_lt.mp hi)]
  constructor
  · intro h
    refine Nat.lt_pow_two_of_testBit _ fun i hi => ?_
    have hzero := hbit i
    rw [h, decide_eq_true hi, Bool.and_true] at hzero
    exact hzero.symm.trans BitVec.getLsbD_zero
  · intro h
    refine BitVec.eq_of_getLsbD_eq fun i hi => ?_
    refine (hbit i).trans (Eq.trans ?_ BitVec.getLsbD_zero.symm)
    by_cases hle : n ≤ i
    · have hclear : p.getLsbD i = false :=
        Nat.testBit_lt_two_pow (h.trans_le (Nat.pow_le_pow_right (by decide) hle))
      rw [hclear, Bool.false_and]
    · rw [decide_eq_false hle, Bool.and_false]

/-- A value that fits a register is not changed by its width. -/
theorem toNat_setWidth_of_le {v w : Nat} (x : BitVec v) {m : Nat} (hm : m < 2 ^ w) (hx : x.toNat ≤ m) :
    (x.setWidth w).toNat = x.toNat := by
  rw [BitVec.toNat_setWidth, Nat.mod_eq_of_lt (hx.trans_lt hm)]

end Sys2Proof

namespace Sys2Proof.Machine

/-! ## The clauses of a valid configuration -/

theorem CfgRegs.codeFits_iff {c : CfgRegs} :
    c.codeFits = true ↔ c.acLen.toNat ≤ 64 ∧ c.acPattern.toNat < 2 ^ c.acLen.toNat := by
  simp only [CfgRegs.codeFits, Config.acMax, Bool.and_eq_true, decide_eq_true_eq, beq_iff_eq, and_not_mask_eq_zero_iff]

theorem CfgRegs.unitsFit_iff {c : CfgRegs} :
    c.unitsFit = true ↔ (c.variant.usesUnits = true → minUnits c.bps.toNat ≤ c.hdrUnits.toNat) := by
  cases h : c.variant.usesUnits <;> simp [CfgRegs.unitsFit, h]

theorem CfgRegs.occupied_iff {c : CfgRegs} :
    c.occupied = true ↔ (c.variant = .ofdm → InUse c.occ c.occLen.toNat) := by
  constructor
  · exact fun h hvar => inUse_of_occupied hvar h
  · intro h
    by_cases hvar : c.variant = .ofdm
    · obtain ⟨i, hi, v, hv, hne⟩ := h hvar
      have hmem : v ∈ c.occ.take c.occLen.toNat :=
        List.mem_iff_getElem?.mpr ⟨i, by rw [List.getElem?_take, if_pos hi, hv]⟩
      have hany : ((c.occ.take c.occLen.toNat).any fun n => n != 0) = true :=
        List.any_eq_true.mpr ⟨v, hmem, by simpa using hne⟩
      rw [CfgRegs.occupied, hany, Bool.or_true]
    · simp [CfgRegs.occupied, hvar]

/-- The clauses of a valid configuration, each as its rule says it (R22 to R30). -/
theorem CfgRegs.valid_iff_rules {p : Params} {c : CfgRegs} : c.valid p = true ↔
    (c.acLen.toNat ≤ 64 ∧ c.acPattern.toNat < 2 ^ c.acLen.toNat) ∧ c.threshold.toNat ≤ c.acLen.toNat
      ∧ (1 ≤ c.bps.toNat ∧ c.bps.toNat ≤ 8) ∧ (1 ≤ c.hdrUnits.toNat ∧ c.hdrUnits.toNat ≤ p.hdrMaxUnits)
      ∧ (1 ≤ c.payloadBps.toNat ∧ c.payloadBps.toNat ≤ 8) ∧ (1 ≤ c.occLen.toNat ∧ c.occLen.toNat ≤ p.occMax)
      ∧ c.occ.length = p.occMax ∧ (c.variant.usesUnits = true → minUnits c.bps.toNat ≤ c.hdrUnits.toNat)
      ∧ (c.variant = .ofdm → InUse c.occ c.occLen.toNat) := by
  rw [CfgRegs.valid_iff, CfgRegs.codeFits_iff, CfgRegs.unitsFit_iff, CfgRegs.occupied_iff]

/-! ## What changing one register asks of a valid configuration -/

section
variable {p : Params} {c : CfgRegs} (hv : c.valid p = true)
include hv

theorem CfgRegs.valid_variant_iff (w : Variant) : CfgRegs.valid p { c with variant := w } = true ↔
    (3 ≤ w.code.toNat → minUnits c.bps.toNat ≤ c.hdrUnits.toNat)
      ∧ (w.code.toNat = 4 → InUse c.occ c.occLen.toNat) := by
  rw [← Variant.usesUnits_iff_code, ← Variant.eq_ofdm_iff_code]
  rw [CfgRegs.valid_iff_rules] at hv ⊢
  tauto

theorem CfgRegs.valid_accessCode_iff (n : BitVec 7) (x : Word) :
    CfgRegs.valid p { c with acLen := n, acPattern := x } = true ↔
      (n.toNat ≤ 64 ∧ x.toNat < 2 ^ n.toNat) ∧ c.threshold.toNat ≤ n.toNat := by
  rw [CfgRegs.valid_iff_rules] at hv ⊢
  tauto

theorem CfgRegs.valid_threshold_iff (t : BitVec 7) :
    CfgRegs.valid p { c with threshold := t } = true ↔ t.toNat ≤ c.acLen.toNat := by
  rw [CfgRegs.valid_iff_rules] at hv ⊢
  tauto

theorem CfgRegs.valid_bps_iff (b : BitVec 4) : CfgRegs.valid p { c with bps := b } = true ↔
    (1 ≤ b.toNat ∧ b.toNat ≤ 8) ∧ (c.variant.usesUnits = true → minUnits b.toNat ≤ c.hdrUnits.toNat) := by
  rw [CfgRegs.valid_iff_rules] at hv ⊢
  tauto

theorem CfgRegs.valid_hdrUnits_iff (u : Half) : CfgRegs.valid p { c with hdrUnits := u } = true ↔
    (1 ≤ u.toNat ∧ u.toNat ≤ p.hdrMaxUnits) ∧ (c.variant.usesUnits = true → minUnits c.bps.toNat ≤ u.toNat) := by
  rw [CfgRegs.valid_iff_rules] at hv ⊢
  tauto

theorem CfgRegs.valid_payloadBps_iff (b : BitVec 4) :
    CfgRegs.valid p { c with payloadBps := b } = true ↔ 1 ≤ b.toNat ∧ b.toNat ≤ 8 := by
  rw [CfgRegs.valid_iff_rules] at hv ⊢
  tauto

theorem CfgRegs.valid_occLen_iff (n : BitVec 7) : CfgRegs.valid p { c with occLen := n } = true ↔
    (1 ≤ n.toNat ∧ n.toNat ≤ p.occMax) ∧ (c.variant = .ofdm → InUse c.occ n.toNat) := by
  rw [CfgRegs.valid_iff_rules] at hv ⊢
  tauto

theorem CfgRegs.valid_occEntry_iff (i : Nat) (x : Half) : CfgRegs.valid p { c with occ := c.occ.set i x } = true ↔
    (c.variant = .ofdm → InUse (c.occ.set i x) c.occLen.toNat) := by
  rw [CfgRegs.valid_iff_rules, List.length_set]
  rw [CfgRegs.valid_iff_rules] at hv
  tauto

end

/-! ## What a configuration command does -/

/-- A failure with `CFG_ERR` is the refusal of a configuration command (R190, R222). -/
theorem State.fail_cfgErr (s : State) : s.fail .cfgErr = s.cfgRefused := by
  rw [State.fail_eq, decide_eq_true rfl, Bool.or_true]
  rfl

section
variable {i : Instr} {run : State → Out} {s : State} {ok : Bool} {new : CfgRegs} {P : Prop}

/-- With `FAULT = 0` a configuration command whose value checks and common rule together say `P` is accepted exactly under
`P` (R190). -/
theorem exec_configure (hf : s.fault = false) (hexec : exec i s = gate run s)
    (hrun : run s = .next (s.configure ok new)) (hP : P ↔ ok = true ∧ new.valid s.params = true) :
    (P → exec i s = .next (s.cfgAccepted new)) ∧ (¬ P → exec i s = .next s.cfgRefused) := by
  rw [hexec, gate_open hf, hrun]
  refine ⟨fun h => ?_, fun h => ?_⟩
  · obtain ⟨hok, hnew⟩ := hP.mp h
    rw [configure_accepted hok hnew]
    rfl
  · have hrefused : (ok && new.valid s.params) = false :=
      Bool.eq_false_iff.mpr fun htrue => h (hP.mpr (Bool.and_eq_true_iff.mp htrue))
    rw [configure_refused hrefused, State.fail_cfgErr]

/-- The same with both branches in one equation. -/
theorem exec_configure_ite [Decidable P] (hf : s.fault = false) (hexec : exec i s = gate run s)
    (hrun : run s = .next (s.configure ok new)) (hP : P ↔ ok = true ∧ new.valid s.params = true) :
    exec i s = if P then .next (s.cfgAccepted new) else .next s.cfgRefused := by
  obtain ⟨haccept, hrefuse⟩ := exec_configure hf hexec hrun hP
  split_ifs with h
  · exact haccept h
  · exact hrefuse h

end

/-- A number that names no layout is refused (R191). -/
theorem exec_cfgVariant_unnamed {v : Byte} {s : State} (hf : s.fault = false) (hv : Variant.ofNumber v = none) :
    exec (.cfgVariant v) s = .next s.cfgRefused := by
  show gate (cfgVariantCommand v) s = _
  rw [gate_open hf, cfgVariantCommand, hv, State.fail_cfgErr]

/-- The number of a layout leaves the choice to the common rule (R190, R191). -/
theorem exec_cfgVariant_named {v : Byte} {w : Variant} {s : State} (hf : s.fault = false)
    (hw : Variant.ofNumber v = some w) :
    (CfgRegs.valid s.params { s.cfg with variant := w } = true →
        exec (.cfgVariant v) s = .next (s.cfgAccepted { s.cfg with variant := w }))
      ∧ (¬ CfgRegs.valid s.params { s.cfg with variant := w } = true → exec (.cfgVariant v) s = .next s.cfgRefused) :=
  exec_configure (ok := true) hf rfl (by rw [cfgVariantCommand, hw]) (and_iff_right rfl).symm

/-! ## The obligations -/

/-- Settles O18: a number that names no layout is refused; one that names a layout is judged by the two clauses that read
`VARIANT`. -/
theorem cfgVariantChecksAndEffect : Obligations.CfgVariantChecksAndEffect := by
  intro v s _ hvalid hf
  refine ⟨fun w hw hunits huse => ?_, fun hbad => ?_⟩
  · refine (exec_cfgVariant_named hf (Variant.ofNumber_eq_some_iff.mpr hw)).1 ?_
    rw [CfgRegs.valid_variant_iff hvalid, hw]
    exact ⟨hunits, huse⟩
  · cases hnum : Variant.ofNumber v with
    | none => exact exec_cfgVariant_unnamed hf hnum
    | some w =>
      refine (exec_cfgVariant_named hf hnum).2 ?_
      rw [CfgRegs.valid_variant_iff hvalid, Variant.ofNumber_eq_some_iff.mp hnum]
      rintro ⟨hunits, huse⟩
      obtain hbig | ⟨hge, hlt⟩ | ⟨heq, hnone⟩ := hbad
      · exact hbig.not_ge (Variant.ofNumber_eq_some_iff.mp hnum ▸ w.code_le)
      · exact hlt.not_ge (hunits hge)
      · exact hnone (huse heq)

/-- Settles O19: a length up to 64 keeps its value in the 7-bit register, and the bits of `p` at `n` and above are 0 exactly
when `p < 2^n`. -/
theorem cfgAccessCodeChecksAndEffect : Obligations.CfgAccessCodeChecksAndEffect := by
  intro n p s _ hvalid hf
  rw [BitVec.ofNat_toNat]
  refine exec_configure_ite hf rfl rfl ?_
  rw [CfgRegs.valid_accessCode_iff hvalid]
  simp only [Bool.and_eq_true, decide_eq_true_eq, beq_iff_eq, Config.acMax, and_not_mask_eq_zero_iff]
  rw [← and_assoc]
  refine (and_iff_left_of_imp fun h => ?_).symm
  rwa [toNat_setWidth_of_le n (by decide) h.1.1]

/-- Settles O20: a threshold up to `AC_LEN` keeps its value in the 7-bit register. -/
theorem cfgThresholdChecksAndEffect : Obligations.CfgThresholdChecksAndEffect := by
  intro v s _ hvalid hf
  rw [BitVec.ofNat_toNat]
  refine exec_configure_ite hf rfl rfl ?_
  rw [CfgRegs.valid_threshold_iff hvalid, decide_eq_true_eq]
  refine (and_iff_left_of_imp fun hle => ?_).symm
  rwa [toNat_setWidth_of_le v (by decide) (hle.trans (Nat.le_of_lt_succ s.cfg.acLen.isLt))]

/-- Settles O21: widths 1 to 8 keep their value in the 4-bit register. -/
theorem cfgBpsChecksAndEffect : Obligations.CfgBpsChecksAndEffect := by
  intro b s _ hvalid hf
  rw [BitVec.ofNat_toNat]
  refine exec_configure_ite hf rfl rfl ?_
  rw [CfgRegs.valid_bps_iff hvalid, Bool.and_eq_true, decide_eq_true_eq, decide_eq_true_eq, ← and_assoc]
  refine and_congr_right fun hrange => ?_
  rw [toNat_setWidth_of_le b (by decide) hrange.2, and_iff_right hrange]

/-- Settles O22: counts up to `HDR_MAX_UNITS`, at most 1024 by R8, keep their value in the 16-bit register. -/
theorem cfgHdrUnitsChecksAndEffect : Obligations.CfgHdrUnitsChecksAndEffect := by
  intro u s hp hvalid hf
  rw [BitVec.ofNat_toNat]
  refine exec_configure_ite hf rfl rfl ?_
  rw [CfgRegs.valid_hdrUnits_iff hvalid, Bool.and_eq_true, decide_eq_true_eq, decide_eq_true_eq, ← and_assoc]
  refine and_congr_right fun hrange => ?_
  rw [toNat_setWidth_of_le u (by decide) (hrange.2.trans hp.unitsHigh), and_iff_right hrange]

/-- Settles O23: widths 1 to 8 keep their value in the 4-bit register. -/
theorem cfgPayloadBpsChecksAndEffect : Obligations.CfgPayloadBpsChecksAndEffect := by
  intro b s _ hvalid hf
  rw [BitVec.ofNat_toNat]
  refine exec_configure_ite hf rfl rfl ?_
  rw [CfgRegs.valid_payloadBps_iff hvalid, Bool.and_eq_true, decide_eq_true_eq, decide_eq_true_eq]
  refine (and_iff_left_of_imp fun hrange => ?_).symm
  rwa [toNat_setWidth_of_le b (by decide) hrange.2]

/-- Settles O24: lengths up to `OCC_MAX`, at most 64 by R8, keep their value in the 7-bit register. -/
theorem cfgOccLenChecksAndEffect : Obligations.CfgOccLenChecksAndEffect := by
  intro n s hp hvalid hf
  rw [BitVec.ofNat_toNat]
  refine exec_configure hf rfl rfl ?_
  rw [CfgRegs.valid_occLen_iff hvalid, Bool.and_eq_true, decide_eq_true_eq, decide_eq_true_eq, ← and_assoc]
  refine and_congr_right fun hrange => ?_
  rw [toNat_setWidth_of_le n (by decide) (hrange.2.trans hp.occHigh), and_iff_right hrange]

/-- Settles O25: the command writes the entry that the statement names, and only the occupancy clause reads the table's
entries. -/
theorem cfgOccEntryChecksAndEffect : Obligations.CfgOccEntryChecksAndEffect := by
  intro i c s _ hvalid hf
  rw [BitVec.ofNat_toNat]
  refine exec_configure hf rfl rfl ?_
  rw [CfgRegs.valid_occEntry_iff hvalid, Bool.and_eq_true, decide_eq_true_eq, decide_eq_true_eq, and_assoc]

/-- Settles O11: of the kinds of effect, only an accepted configuration command and `RESET` name the configuration; the first
leaves a valid one by the common rule of R190, and the second the reset values. -/
theorem configurationStaysValid : Obligations.ConfigurationStaysValid := by
  intro i s u hi hp hvalid h
  cases exec_effect hi h with
  | nop | syncReset | failed => exact hvalid
  | reset => exact CfgRegs.reset_valid hp
  | readReg => rw [afterReadReg_frame]; exact hvalid
  | configured _ _ hnew => exact hnew
  | pushed _ _ hc =>
    obtain ⟨rs, -, hu⟩ := consumeBit_frame hc
    rw [hu]; exact hvalid
  | formatted _ _ hb =>
    obtain ⟨v, -, -, rfl⟩ := buildHeader_ok hb
    exact hvalid

/-- Settles O13: `NOP` and the framing reset are not gated, and `SYNC_RESET` is the framing reset behind an open gate. -/
theorem nopAndSyncResetEffects : Obligations.NopAndSyncResetEffects := by
  refine ⟨fun _ => rfl, fun _ => rfl, fun s hf => ?_⟩
  show gate syncResetCommand s = _
  rw [gate_open hf]
  rfl

/-- Settles O14: `RESET` is not gated, and each register reads its reset value. -/
theorem resetRestoresResetValues : Obligations.ResetRestoresResetValues := by
  intro s
  exact ⟨s.resetAll.respond .ok 0, rfl, rfl, rfl, rfl, rfl, rfl, rfl, rfl, rfl, rfl, rfl, rfl, rfl, rfl, rfl⟩

end Sys2Proof.Machine
end

section
/-! SUPPORT. Errors (spec/60_exceptions.md): a command either answers `OK` or is the one failure of R222, and `FAULT` blocks
every command that check 4 of R86 guards. -/

namespace Sys2Proof

/-- The failures of the table of R84 have the numbers it gives them, and only number 2 is `CFG_ERR`. -/
theorem Status.failure_of_number {n : Nat} {st : Status}
    (h : (n, st) ∈ [(1, Status.illegal), (2, Status.cfgErr), (3, Status.blocked), (4, Status.fmtLen), (5, Status.fmtUnsup)]) :
    st ≠ .ok ∧ st.code = BitVec.ofNat 8 n ∧ (st = .cfgErr ↔ n = 2) := by
  simp only [List.mem_cons, Prod.mk.injEq, List.not_mem_nil, or_false] at h
  obtain ⟨rfl, rfl⟩ | ⟨rfl, rfl⟩ | ⟨rfl, rfl⟩ | ⟨rfl, rfl⟩ | ⟨rfl, rfl⟩ := h <;> decide

end Sys2Proof

namespace Sys2Proof.Machine

/-! ## A command succeeds or fails -/

/-- Every kind of effect but the failure answers `OK`, and of those only `RESET` touches `FAULT` (R221, R222). -/
theorem CommandEffect.ok_or_fail {i : Instr} {s u : State} (h : CommandEffect s i u) :
    ((∃ v, u.respOut = s.respOut ++ [⟨.ok, v⟩]) ∧ (i ≠ .reset → u.fault = s.fault))
      ∨ ∃ st, st ≠ .ok ∧ u = s.fail st := by
  cases h with
  | reset => exact .inl ⟨⟨_, rfl⟩, fun hi => absurd rfl hi⟩
  | nop | syncReset | configured => exact .inl ⟨⟨_, rfl⟩, fun _ => rfl⟩
  | readReg => rw [afterReadReg_frame]; exact .inl ⟨⟨_, rfl⟩, fun _ => rfl⟩
  | pushed _ _ hc =>
    obtain ⟨rs, -, hu⟩ := consumeBit_frame hc
    rw [hu]; exact .inl ⟨⟨_, rfl⟩, fun _ => rfl⟩
  | formatted _ _ hb =>
    obtain ⟨v, -, -, rfl⟩ := buildHeader_ok hb
    exact .inl ⟨⟨_, rfl⟩, fun _ => rfl⟩
  | failed _ hst => exact .inr ⟨_, hst, rfl⟩

/-- The response port tells which response was appended last. -/
theorem response_unique {s u : State} {q r : Response} (hq : u.respOut = s.respOut ++ [q])
    (hr : u.respOut = s.respOut ++ [r]) : q = r :=
  List.singleton_inj.mp (List.append_cancel_left (hq.symm.trans hr))

/-! ## Check 4 of R86 -/

/-- Under `FAULT` every command but `NOP`, `RESET` and `READ_REG` meets a shut gate (R221). -/
theorem exec_blocked {i : Instr} {s : State} (hi : i.isCommand = true) (hnop : i ≠ .nop) (hreset : i ≠ .reset)
    (hread : ∀ r, i ≠ .readReg r) (hf : s.fault = true) : exec i s = .next (s.fail .blocked) := by
  cases i with
  | nop => exact absurd rfl hnop
  | reset => exact absurd rfl hreset
  | readReg r => exact absurd rfl (hread r)
  | syncReset | cfgVariant | cfgAccessCode | cfgThreshold | cfgBps | cfgHdrUnits | cfgPayloadBps | cfgOccLen | cfgOccEntry
  | pushBit | pushSoft | format => exact gate_shut hf
  | _ => cases hi

/-- The three commands that check 4 lets through answer `OK`, or `ILLEGAL` for an unassigned register (R203, R205, R206). -/
theorem exec_ungated_status {i : Instr} {s u : State} (hi : i = .nop ∨ i = .reset ∨ ∃ n, i = .readReg n)
    (h : exec i s = .next u) : ∃ q : Response, u.respOut = s.respOut ++ [q] ∧ (q.status = .ok ∨ q.status = .illegal) := by
  obtain rfl | rfl | ⟨n, rfl⟩ := hi
  · cases h; exact ⟨_, rfl, .inl rfl⟩
  · cases h; exact ⟨_, rfl, .inl rfl⟩
  · obtain ⟨v, -, rfl⟩ | rfl := exec_readReg_cases h
    · rw [afterReadReg_frame]; exact ⟨_, rfl, .inl rfl⟩
    · exact ⟨_, rfl, .inr rfl⟩

/-! ## `fail` as an instruction of its own -/

theorem exec_fail_of_ne_ok {st : Status} (h : st ≠ .ok) (s : State) : exec (.fail st) s = .next (s.fail st) := by
  show execFail st s = _
  rw [execFail, if_pos (by simpa [failStatusOk] using h)]

/-! ## The obligations -/

/-- Settles O26: the blocked commands by `exec_blocked`; after any other command than `RESET` either the answer is `OK` and
`FAULT` is kept, or the failure of R222 sets it exactly on `CFG_ERR`. -/
theorem faultBlocksEveryOtherCommand : Obligations.FaultBlocksEveryOtherCommand := by
  refine ⟨fun i s hi hnop hreset hread hf => ?_, fun i s u r hi h hr => ?_, fun i s u hi hreset h => ?_, fun s u h => ?_⟩
  · have hkept : faultAfter s.fault .blocked = s.fault := Bool.or_false _
    rw [exec_blocked hi hnop hreset hread hf, State.fail, hkept]
    rfl
  · obtain ⟨q, hq, hstatus⟩ := exec_ungated_status hi h
    rw [← response_unique hq hr]
    obtain hok | hillegal := hstatus
    · rw [hok]; decide
    · rw [hillegal]; decide
  · obtain ⟨⟨v, hv⟩, hfault⟩ | ⟨st, -, rfl⟩ := (exec_effect hi h).ok_or_fail
    · exact ⟨_, hv, by rw [hfault hreset]; exact (Bool.or_false _).symm⟩
    · exact ⟨⟨st, 0⟩, s.fail_respOut st, rfl⟩
  · cases h; rfl

/-- Settles O29: a status other than `OK` is that of the failure of R222, whose next state is `State.fail_eq`. -/
theorem failedCommandHasNoOtherEffect : Obligations.FailedCommandHasNoOtherEffect := by
  intro i s u r hi h hr hstatus
  obtain ⟨⟨v, hv⟩, -⟩ | ⟨st, -, rfl⟩ := (exec_effect hi h).ok_or_fail
  · exact absurd (response_unique hv hr ▸ rfl) hstatus
  · rw [State.fail_eq]

/-- Settles O27: each of the five failures is `State.fail_eq` under its number of R84. -/
theorem failRecordsAndResponds : Obligations.FailRecordsAndResponds := by
  refine ⟨fun n st s hmem => ?_, fun s => rfl⟩
  obtain ⟨hne, hcode, hcfg⟩ := Status.failure_of_number hmem
  rw [exec_fail_of_ne_ok hne, State.fail_eq, hcode, decide_eq_decide.mpr hcfg]

end Sys2Proof.Machine
end
